-- ==== Sys2Proof/Word.lean ====
section
/-! DEFINITION. The two value types of the block (00_scope.md R14): the 12-bit PDP-8 word and the byte. -/

namespace Sys2Proof

/-- `Byte` of R14: one byte of the wire or of a store, bits 7 down to 0 (R13). -/
abbrev Byte := BitVec 8

/-- `Word12` of R14: one 12-bit PDP-8 word, bits 11 down to 0, bit 0 least significant (R13). -/
abbrev Word12 := BitVec 12

end Sys2Proof
end

