-- ==== Sys2Proof/Machine/Codec.lean ====
section
/-! DEFINITION. The word codec (40_codec.md) and the word arithmetic of 00_scope.md R14 and R17. -/

namespace Sys2Proof.Machine

/-- `neg12` (R149): the 12-bit two's complement of a count. -/
def neg12 (n : Nat) : Word12 := BitVec.ofNat 12 ((4096 - n % 4096) % 4096)

/-- `ceil2` (R14): half of a count, rounded up. -/
def ceil2 (n : Nat) : Nat := (n + 1) / 2

/-- `decode_wire_word` (R140): the first byte carries the low six bits. -/
def decodeWireWord (b0 b1 : Byte) : Word12 :=
  (b0 &&& 0o77#8).setWidth 12 ||| ((b1 &&& 0o77#8).setWidth 12 <<< 6)

/-- `store_decode` (R142): the byte at the lower offset carries the low eight bits. -/
def storeDecode (s0 s1 : Byte) : Word12 :=
  s0.setWidth 12 ||| ((s1 &&& 0o17#8).setWidth 12 <<< 8)

/-- `store_encode` (R143). -/
def storeEncode (w : Word12) : List Byte :=
  [(w &&& 0xFF#12).setWidth 8, ((w >>> 8) &&& 0x0F#12).setWidth 8]

/-- `encode_control_word` (R144). -/
def encodeControlWord (w : Word12) : List Byte :=
  [(w &&& 0o77#12).setWidth 8, ((w >>> 6) &&& 0o77#12).setWidth 8]

/-- A list of words as wire pairs, in order (R278). -/
def encodeControlWords (ws : List Word12) : List Byte := ws.flatMap encodeControlWord

/-- The words of a list of wire pairs, in order (R141, R201). -/
def decodeWireWords : List Byte → List Word12
  | b0 :: b1 :: rest => decodeWireWord b0 b1 :: decodeWireWords rest
  | _ => []

/-- The words of a list of store pairs, in order (R276). -/
def storeDecodeWords : List Byte → List Word12
  | s0 :: s1 :: rest => storeDecode s0 s1 :: storeDecodeWords rest
  | _ => []

/-- The store pair `unwire_to_store` makes of one wire pair (R145). -/
def unwirePair (b0 b1 : Byte) : List Byte :=
  [(b0 &&& 0o77#8) ||| ((b1 &&& 0o3#8) <<< 6), (b1 >>> 2) &&& 0o17#8]

/-- The wire pair `store_to_wire` makes of one store pair (R146). -/
def wirePair (s0 s1 : Byte) : List Byte :=
  [s0 &&& 0o77#8, ((s0 >>> 6) &&& 0o3#8) ||| ((s1 &&& 0o17#8) <<< 2)]

/-- `unwire_to_store` (R145), pair by pair; `none` is the refusal of an odd-length list
(93_implementation_defined.md I26). -/
def unwireToStore : List Byte → Option (List Byte)
  | [] => some []
  | [_] => none
  | b0 :: b1 :: rest => (unwireToStore rest).map (unwirePair b0 b1 ++ ·)

/-- `store_to_wire` (R146), pair by pair; `none` is the refusal of an odd-length list (I26). -/
def storeToWire : List Byte → Option (List Byte)
  | [] => some []
  | [_] => none
  | s0 :: s1 :: rest => (storeToWire rest).map (wirePair s0 s1 ++ ·)

end Sys2Proof.Machine
end

