-- ==== Sys2Proof/Syntax.lean ====
section
/-! DEFINITION. The commands of the engine, one constructor per row of the opcode map
(30_encoding.md R102), and the parameter blocks that follow a transfer command (R110 to R113). -/

namespace Sys2Proof

/-- The two addressing modes (00_scope.md R3, 10_state.md R38). -/
inductive Mode where
  /-- The page-oriented OS/8 convention. -/
  | page
  /-- The fixed-512-block DIAL convention. -/
  | fixed
deriving DecidableEq, Repr, Inhabited

/-- The direction of a transfer (R211). -/
inductive Direction where
  | read
  | write
deriving DecidableEq, Repr, Inhabited

/-- A command, as its command byte names it (R102). The command byte is the whole opcode (R100);
what follows a transfer command on the wire is a `ParamBlock`. -/
inductive Instr where
  /-- 0x00: the bootstrap injector (R180). -/
  | helpboot
  /-- 0x40: the boot-sector send (R181). -/
  | bootsect
  /-- 0x41: transfer, unit 0, side 0 (R186). -/
  | xferA
  /-- 0x42: transfer, unit 0, side 1 (R187). -/
  | xferB
  /-- 0x43: transfer, unit 1, side 0 (R188). -/
  | xferC
  /-- 0x44: transfer, unit 1, side 1 (R189). -/
  | xferD
  /-- 0x45: transfer, unit 2, side 0 (R190). -/
  | xferE
  /-- 0x46: transfer, unit 2, side 1 (R191). -/
  | xferF
  /-- 0x47: transfer, unit 3, side 0 (R192). -/
  | xferG
  /-- 0x48: transfer, unit 3, side 1 (R193). -/
  | xferH
  /-- 0x51: flush, close and halt (R184). -/
  | quit
  /-- Every other byte, kept as its operand (R185). -/
  | ignored (b : Byte)
deriving DecidableEq, Repr

/-- The parameter block of a transfer command (R112, R113), with the bit fields of its words
already told apart. `pages` is the page count itself, 1 to 32, not its 5-bit code (R110). -/
inductive ParamBlock where
  /-- PAGE mode: function word (direction, pages, field), buffer address, start block. -/
  | page (dir : Direction) (pages : Nat) (field : BitVec 3) (buffer start : Word12)
  /-- FIXED mode: function word (direction, sub-unit), field and buffer index, start block,
  block count. -/
  | fixed (dir : Direction) (sub field : BitVec 3) (index : BitVec 4) (start blocks : Word12)
deriving DecidableEq, Repr

/-- The mode whose parameter block this is. -/
def ParamBlock.mode : ParamBlock → Mode
  | .page .. => .page
  | .fixed .. => .fixed

end Sys2Proof
end

