-- ==== Sys2Proof/Config.lean ====
section
/-! DEFINITION. The configuration of the block (00_scope.md R10): the parameters whose value the
spec fixes, the record `Cfg` of the OPEN parameters, and the free values of the model. -/

namespace Sys2Proof

namespace Config

/-! ### Parameters the spec gives a value -/

/-- `PAGE_SIZE`, in words. -/
def pageSize : Nat := 128
/-- `BLOCK_SIZE`, in words. -/
def blockSize : Nat := 256
/-- `BYTES_PER_WORD`. -/
def bytesPerWord : Nat := 2
/-- The bytes of one block, `BLOCK_SIZE * BYTES_PER_WORD` (R78, R79). -/
def blockBytes : Nat := blockSize * bytesPerWord
/-- The bytes of one page, `PAGE_SIZE * BYTES_PER_WORD` (R253). -/
def pageBytes : Nat := pageSize * bytesPerWord
/-- `FIXED_SUBUNIT_BLOCKS` (R215). -/
def subUnitBlocks : Nat := 512
/-- `PAGE_PARAM_WORDS` and `FIXED_PARAM_WORDS` (R103). -/
def paramWordCount : Mode → Nat
  | .page => 3
  | .fixed => 4
/-- `RESIDENT_BASE` (R222). -/
def residentBase : Nat := 0o7600
/-- `CDF_BASE` (R115). -/
def cdfBase : Word12 := 0o6201#12
/-- `ACK_READ_PENDING` (R120). -/
def ackReadPending : Word12 := 0o4000#12
/-- `ACK_DONE` (R120). -/
def ackDone : Word12 := 0#12
/-- `ACK_NACK` (R120). -/
def ackNack : Word12 := 0o2000#12
/-- `B_UNAVAIL`, no bit at all (conflict C6). -/
def bUnavail : Word12 := 0#12
/-- `BOOT_SECTOR_BYTES` (conflict C5). -/
def bootSectorBytes : Nat := 256
/-- `BOOT_TRAILER`, the byte 0200 (R108). -/
def bootTrailer : Byte := 0o200#8
/-- `PATCH_CDF_VAL`, the CDF of field 1 (R277). -/
def patchCdfVal : Word12 := 0o6211#12

/-! ### Free values

No Lean proof can learn what these are, so what is proved of them holds for every value. -/

/-- `eof_fill` (R81, decision D16): the `n`-th byte drawn for an offset past a store's end. -/
opaque eofFill : Nat → Byte

/-- The value `ACK_WRITE_PENDING` has at `State.reset` (decision D4: OPEN). -/
opaque launchAckWritePending : Word12
/-- The value `B_PROTECT` has at `State.reset` (decision D5: OPEN). -/
opaque launchBProtect : Word12
/-- The value `B_BOUND` has at `State.reset` (decision D5: OPEN). -/
opaque launchBBound : Word12
/-- The value `B_RESIDENT` has at `State.reset` (decision D5: OPEN). -/
opaque launchBResident : Word12
/-- The value `B_DESYNC` has at `State.reset` (decision D5: OPEN). -/
opaque launchBDesync : Word12
/-- The value `PATCH_ADDR_VAL` has at `State.reset` (decision D24: OPEN). -/
opaque launchPatchAddrVal : Word12
/-- The value `PATCH_WC_VAL` has at `State.reset` (decision D24: OPEN). -/
opaque launchPatchWcVal : Word12

end Config

/-- `cfg` (R10): the OPEN parameters, and `FIXED_SIDE_OFFSET`, which decision D12 keeps as a named
parameter. It is part of the state and no step writes it (R37). -/
structure Cfg where
  /-- `MODE` (R38). -/
  mode : Mode
  /-- `NUMBER_OF_BLOCKS`, blocks per side (decision D2). -/
  numberOfBlocks : Nat
  /-- `FIXED_SIDE_OFFSET` (R216). -/
  fixedSideOffset : Bool
  /-- `ACK_WRITE_PENDING` (R120). -/
  ackWritePending : Word12
  /-- `B_PROTECT` (R300). -/
  bProtect : Word12
  /-- `B_BOUND` (R300). -/
  bBound : Word12
  /-- `B_RESIDENT` (R300). -/
  bResident : Word12
  /-- `B_DESYNC` (R300). -/
  bDesync : Word12
  /-- `HELP_TABLE` (R50). -/
  helpTable : List Word12
  /-- `STAGE2_TABLE` (R50). -/
  stage2Table : List Word12
  /-- `help_byte` as its table of values: entry `2 * (w & 0177) + l` is `help_byte(w, l)`, since
  R273 lets it depend on those 8 bits only. -/
  helpBytes : List Byte
  /-- `HELP_FORBIDDEN_MASK` (R274). -/
  helpForbiddenMask : Word12
  /-- `BOOT_PREFIX_LEN` (R276). -/
  bootPrefixLen : Nat
  /-- `PATCH_ADDR_OFF` (R277). -/
  patchAddrOff : Nat
  /-- `PATCH_ADDR_VAL` (R277). -/
  patchAddrVal : Word12
  /-- `PATCH_WC_OFF` (R277). -/
  patchWcOff : Nat
  /-- `PATCH_WC_VAL` (R277). -/
  patchWcVal : Word12
  /-- `PATCH_CDF_OFF` (R277). -/
  patchCdfOff : Nat
  /-- `POWER_OFF` (R184). -/
  powerOff : Bool
deriving DecidableEq, Repr

/-- The configuration `State.reset` is launched with: the spec leaves every OPEN parameter to the
launch, so each value here is the model's own (notes/assumptions 2, 3). -/
def Config.launch : Cfg where
  mode := .page
  numberOfBlocks := 3248
  fixedSideOffset := true
  ackWritePending := Config.launchAckWritePending
  bProtect := Config.launchBProtect
  bBound := Config.launchBBound
  bResident := Config.launchBResident
  bDesync := Config.launchBDesync
  helpTable := []
  stage2Table := []
  helpBytes := (List.range 256).map (BitVec.ofNat 8)
  helpForbiddenMask := 0#12
  bootPrefixLen := 128
  patchAddrOff := 0
  patchAddrVal := Config.launchPatchAddrVal
  patchWcOff := 1
  patchWcVal := Config.launchPatchWcVal
  patchCdfOff := 2
  powerOff := false

end Sys2Proof
end

