-- ==== Sys2Proof/WellFormed.lean ====
section
/-! DEFINITION. What a well-formed command, parameter block and configuration are. -/

namespace Sys2Proof

/-- A byte that R102 gives a row of its own: 0x00, 0x40 to 0x48, 0x51. -/
def isNamedCommand (b : Byte) : Bool :=
  b == 0x00#8 || (0x40#8 ≤ b && b ≤ 0x48#8) || b == 0x51#8

/-- An `ignored` command holds a byte that no other row of R102 names (R185); the other commands
have no operand to check. -/
def Instr.wf : Instr → Bool
  | .ignored b => !isNamedCommand b
  | .helpboot | .bootsect | .quit => true
  | .xferA | .xferB | .xferC | .xferD | .xferE | .xferF | .xferG | .xferH => true

/-- A PAGE-mode block asks for 1 to 32 pages (R110, R213); every FIXED-mode field is bounded by
its width. -/
def ParamBlock.wf : ParamBlock → Bool
  | .page _ pages _ _ _ => 1 ≤ pages && pages ≤ 32
  | .fixed .. => true

/-- The block may follow a transfer command of an engine in this mode (R103). -/
def ParamBlock.fits (mode : Mode) (p : ParamBlock) : Bool :=
  p.wf && p.mode == mode

/-- `help_byte` is injective on the 8 bits it may depend on (R273): its table has one entry for
each and no two alike. -/
abbrev Cfg.helpBytesInjective (c : Cfg) : Prop :=
  c.helpBytes.length = 256 ∧ c.helpBytes.Nodup

/-- `WellFormed(cfg)` of R11, less `units[0].in_use`, which the engine itself checks (R342); with
the property R273 fixes of `help_byte`. -/
abbrev Cfg.wf (c : Cfg) : Prop :=
  (1 ≤ c.numberOfBlocks ∧ c.numberOfBlocks ≤ 4095) ∧
  (128 ≤ c.bootPrefixLen ∧ c.bootPrefixLen ≤ 256) ∧
  (c.patchAddrOff < c.bootPrefixLen ∧ c.patchWcOff < c.bootPrefixLen ∧
    c.patchCdfOff < c.bootPrefixLen) ∧
  (c.patchAddrOff ≠ c.patchWcOff ∧ c.patchAddrOff ≠ c.patchCdfOff ∧
    c.patchWcOff ≠ c.patchCdfOff) ∧
  c.helpBytesInjective

end Sys2Proof
end

