-- ==== Sys2Proof/Decode.lean ====
section
/-! DEFINITION. The decoder of command bytes and parameter blocks (30_encoding.md), total on any
bytes, and after it the encoder: the client's side of R127 and R128. -/

namespace Sys2Proof

/-- Why bytes hold no command. Every byte is some command (R125), so only a lack of bytes, or a
parameter block asked of a command that has none, is refused. -/
inductive DecodeError where
  /-- There is no command byte. -/
  | noCommandByte
  /-- The command takes no parameter block (R103). -/
  | noParamBlock
  /-- Fewer bytes than the parameter block of the mode has (R103). -/
  | shortParamBlock
deriving DecidableEq, Repr

/-- The opcode map (R102): all eight bits select the command (R100), and a byte with no row of
its own is `ignored` (R185). -/
def decodeCommand (b : Byte) : Instr :=
  if b = 0x00#8 then .helpboot
  else if b = 0x40#8 then .bootsect
  else if b = 0x41#8 then .xferA
  else if b = 0x42#8 then .xferB
  else if b = 0x43#8 then .xferC
  else if b = 0x44#8 then .xferD
  else if b = 0x45#8 then .xferE
  else if b = 0x46#8 then .xferF
  else if b = 0x47#8 then .xferG
  else if b = 0x48#8 then .xferH
  else if b = 0x51#8 then .quit
  else .ignored b

/-- The command at the head of a byte list, and the bytes after it. -/
def decode : List Byte → Except DecodeError (Instr × List Byte)
  | [] => .error .noCommandByte
  | b :: rest => .ok (decodeCommand b, rest)

/-- A command that a parameter block follows (R103). -/
def Instr.isTransfer : Instr → Bool
  | .xferA | .xferB | .xferC | .xferD | .xferE | .xferF | .xferG | .xferH => true
  | .helpboot | .bootsect | .quit | .ignored _ => false

/-- The direction bit, bit 11 of the function word in both modes (R211). -/
def decodeDirection (w0 : Word12) : Direction :=
  if w0.getLsbD 11 then .write else .read

/-- The page count of a PAGE-mode function word: bits 10:6, 0 meaning 32 (R213, conflict C1). -/
def decodePages (w0 : Word12) : Nat :=
  let p := (w0.extractLsb' 6 5).toNat
  if p = 0 then 32 else p

/-- The PAGE-mode parameter block (R110, R112, R213); bits 2:0 of the function word are ignored. -/
def decodePage (w0 w1 w2 : Word12) : ParamBlock :=
  .page (decodeDirection w0) (decodePages w0) (w0.extractLsb' 3 3) w1 w2

/-- The FIXED-mode parameter block (R111, R113, R214); bits 10:3 of the function word and bits
11:7 of the second word are ignored. -/
def decodeFixed (w0 w1 w2 w3 : Word12) : ParamBlock :=
  .fixed (decodeDirection w0) (w0.extractLsb' 0 3) (w1.extractLsb' 4 3) (w1.extractLsb' 0 4) w2 w3

/-- The parameter block that a mode reads from the parameter words (R210). -/
def decodeParams (mode : Mode) (w0 w1 w2 w3 : Word12) : ParamBlock :=
  match mode with
  | .page => decodePage w0 w1 w2
  | .fixed => decodeFixed w0 w1 w2 w3

/-- A whole transfer command, its byte and its parameter block (R121, steps 1 and 2), and the
bytes after it. -/
def decodeTransfer (mode : Mode) (bs : List Byte) :
    Except DecodeError (Instr × ParamBlock × List Byte) :=
  match decode bs with
  | .error e => .error e
  | .ok (i, rest) =>
    if i.isTransfer then
      match mode, rest with
      | .page, a0 :: a1 :: b0 :: b1 :: c0 :: c1 :: more =>
        .ok (i, decodePage (Machine.decodeWireWord a0 a1) (Machine.decodeWireWord b0 b1)
          (Machine.decodeWireWord c0 c1), more)
      | .fixed, a0 :: a1 :: b0 :: b1 :: c0 :: c1 :: d0 :: d1 :: more =>
        .ok (i, decodeFixed (Machine.decodeWireWord a0 a1) (Machine.decodeWireWord b0 b1)
          (Machine.decodeWireWord c0 c1) (Machine.decodeWireWord d0 d1), more)
      | _, _ => .error .shortParamBlock
    else .error .noParamBlock

/-! ### The encoder -/

/-- The command byte of a command (R102). -/
def encodeCommand : Instr → Byte
  | .helpboot => 0x00#8
  | .bootsect => 0x40#8
  | .xferA => 0x41#8
  | .xferB => 0x42#8
  | .xferC => 0x43#8
  | .xferD => 0x44#8
  | .xferE => 0x45#8
  | .xferF => 0x46#8
  | .xferG => 0x47#8
  | .xferH => 0x48#8
  | .quit => 0x51#8
  | .ignored b => b

/-- `C: CMD x` (R127): the bytes of a command without its parameter block. -/
def encode (i : Instr) : List Byte := [encodeCommand i]

/-- Bit 11 of the function word (R110, R111). -/
def encodeDirection : Direction → Word12
  | .read => 0#12
  | .write => 1#12 <<< 11

/-- The parameter words, with every ignored bit zero: `XFER_PAGE` and `XFER_FIXED` of R128. -/
def paramWords : ParamBlock → List Word12
  | .page dir pages field buffer start =>
    [encodeDirection dir ||| (BitVec.ofNat 12 (pages % 32) <<< 6) ||| (field.setWidth 12 <<< 3),
      buffer, start]
  | .fixed dir sub field index start blocks =>
    [encodeDirection dir ||| sub.setWidth 12,
      (field.setWidth 12 <<< 4) ||| index.setWidth 12, start, blocks]

/-- The parameter block as the client sends it, each word a wire pair (R112, R113). -/
def paramBytes (p : ParamBlock) : List Byte := Machine.encodeControlWords (paramWords p)

/-- A whole transfer command as the client sends it (R128). -/
def encodeTransfer (i : Instr) (p : ParamBlock) : List Byte := encode i ++ paramBytes p

/-! ### Instructions as the opcode table numbers their bits -/

/-- The first `n` bytes of a number, the byte of bits 7 to 0 first. -/
def bytesOfNat (w : Nat) : Nat → List Byte
  | 0 => []
  | n + 1 => BitVec.ofNat 8 w :: bytesOfNat (w / 256) n

/-- The bytes of an instruction whose table bits are `w` and whose bits above `nbits` are 0. -/
def tableBytes (nbits w n : Nat) : List Byte := bytesOfNat (w % 2 ^ nbits) n

/-- The instruction the decoder reads from the table's bits. -/
def decodeTableWord (nbits w : Nat) : Option Instr :=
  match decode (tableBytes nbits w 1) with
  | .ok (i, _) => some i
  | .error _ => none

end Sys2Proof
end

