-- ==== Sys2Proof/Machine/State.lean ====
section
/-! DEFINITION. The state of the engine and of the agents around it (10_state.md), as plain data,
and the state right after reset (R52). -/

namespace Sys2Proof.Machine

/-- The index of a unit, 0 to 3 (R34). -/
inductive UnitNo where
  | u0
  | u1
  | u2
  | u3
deriving DecidableEq, Repr, Inhabited

/-- One thing of a kind for each of the four units (R34). -/
structure PerUnit (α : Type) where
  u0 : α
  u1 : α
  u2 : α
  u3 : α
deriving DecidableEq, Repr

/-- The entry of a unit. -/
def PerUnit.get {α : Type} (p : PerUnit α) : UnitNo → α
  | .u0 => p.u0
  | .u1 => p.u1
  | .u2 => p.u2
  | .u3 => p.u3

/-- The table with one entry replaced. -/
def PerUnit.set {α : Type} (p : PerUnit α) (u : UnitNo) (a : α) : PerUnit α :=
  match u with
  | .u0 => { p with u0 := a }
  | .u1 => { p with u1 := a }
  | .u2 => { p with u2 := a }
  | .u3 => { p with u3 := a }

/-- The table computed entry by entry. -/
def PerUnit.map {α β : Type} (f : α → β) (p : PerUnit α) : PerUnit β :=
  ⟨f p.u0, f p.u1, f p.u2, f p.u3⟩

/-- One row of the unit table as the configuration gives it (R34). The store handle is the unit's
own number: it is present exactly when `inUse` (notes/assumptions 7). -/
structure UnitConfig where
  inUse : Bool
  readProtect : Bool
  writeProtect : Bool
deriving DecidableEq, Repr

/-- The cells of a store that do not read as zero, by byte offset. -/
abbrev Memory := List Host.Cell

/-- The one form of a memory: offsets strictly rising, and no cell equal to what an unlisted
offset reads as. -/
abbrev Memory.wf (m : Memory) : Prop :=
  m.Pairwise (fun a b => a.1 < b.1) ∧ ∀ c ∈ m, c.2 ≠ 0#8

/-- `STORE[u]` (R49): an image file of `len` bytes. An offset below `len` that `cells` does not
list holds zero; an offset at or past `len` holds no byte (R81). -/
structure Store where
  len : Nat
  cells : Memory
deriving DecidableEq, Repr

/-- The cells are in their one form and none lies past the store's end. -/
abbrev Store.wf (s : Store) : Prop := s.cells.wf ∧ ∀ c ∈ s.cells, c.1 < s.len

/-- The store of no bytes. -/
def Store.empty : Store := ⟨0, []⟩

/-- The port primitives (R15). -/
inductive Primitive where
  | recv
  | send
  | drain
  | storeRead
  | storeWrite
  | storeFlush
  | storeClose
deriving DecidableEq, Repr

/-- `IoError(p, u)` (R310): the primitive that failed and, for a store primitive, its unit. -/
structure FatalInfo where
  primitive : Primitive
  unit : Option UnitNo
deriving DecidableEq, Repr

/-- Why the engine stopped in order (R30). -/
inductive HaltReason where
  | quit
  | cancel
deriving DecidableEq, Repr

/-- The phases of the transfer procedure (R30): where in `Xfer` the engine is. -/
inductive XferPhase where
  | params
  | setup
  | ack
  | rdFetch
  | rdSend
  | rdDrain
  | rdFinal
  | wrRecv
  | wrDrain
  | wrPad
  | wrAck
  | wrCommit
  | wrFlush
deriving DecidableEq, Repr

/-- `phase` (R30), the engine's program counter. -/
inductive Phase where
  /-- `RESET`. -/
  | reset
  /-- `REFUSED`, final. -/
  | refused
  /-- `IDLE`. -/
  | idle
  /-- `PARAMS` to `WR_FLUSH`. -/
  | xfer (p : XferPhase)
  /-- `BOOTSECT`. -/
  | bootsect
  /-- `HELP`. -/
  | help
  /-- `QUIT`. -/
  | quit
  /-- `HALTED(reason)`, final. -/
  | halted (reason : HaltReason)
  /-- `FATAL(info)`, final. -/
  | fatal (info : FatalInfo)
deriving DecidableEq, Repr

/-- The parameter registers `W[0..3]` (R41). -/
structure ParamRegs where
  w0 : Word12
  w1 : Word12
  w2 : Word12
  w3 : Word12
deriving DecidableEq, Repr

/-- The transfer request `TR` (R42). -/
structure TransferRequest where
  dir : Direction
  unit : UnitNo
  side : BitVec 1
  field : BitVec 3
  bufferAddress : Word12
  startBlock : Nat
  pageCount : Nat
  subUnit : BitVec 3
  blockOffset : Nat
  halfBlock : Bool
  cdf : Word12
  totalWords : Nat
  totalBytes : Nat
  wc : Word12
  ack : Word12
  ok : Bool
deriving DecidableEq, Repr

/-- One event of the trace (R70). -/
inductive Event where
  | recv (bs : List Byte)
  | send (bs : List Byte)
  | drain (bs : List Byte)
  | storeRead (u : UnitNo) (off n : Nat) (bs : List Byte)
  | storeWrite (u : UnitNo) (off : Nat) (bs : List Byte)
  | storeFlush (u : UnitNo)
  | storeClose (u : UnitNo)
  | powerOff
  | halt (reason : HaltReason)
  | fatal (info : FatalInfo)
  | refused
deriving DecidableEq, Repr

/-- What the other three agents of R33 do before one primitive of the engine: the client sends
bytes, the operator may set the cancel request, and the storage environment decides whether the
primitive fails, and after how many of its bytes (R311). -/
structure EnvMove where
  /-- The bytes the client appends to `RXQ` (R46). -/
  arrive : List Byte
  /-- Whether the operator sets `CANCEL` (R45). -/
  cancel : Bool
  /-- `some k`: the primitive fails, with a partial effect of at most `k` bytes. -/
  fail : Option Nat
deriving DecidableEq, Repr

/-- The whole state: what R52 lists, the trace of R70, and two fields of the model's own, `env`
and `draws`. -/
structure State where
  /-- `phase` (R30). -/
  phase : Phase
  /-- `cfg` (R10, R37): no step writes it. -/
  cfg : Cfg
  /-- `units[0..3]` (R34): no step writes it. -/
  units : PerUnit UnitConfig
  /-- `open[u]` (R39). -/
  isOpen : PerUnit Bool
  /-- `CMD` (R40). -/
  cmd : Byte
  /-- `W[0..3]` (R41). -/
  w : ParamRegs
  /-- `TR` (R42), with the flags `TR.ok` and `TR.half_block` (R47). -/
  tr : TransferRequest
  /-- `BUF` (R43). -/
  buf : List Byte
  /-- The flag `desync` (R47). -/
  desync : Bool
  /-- `CANCEL` (R45). -/
  cancel : Bool
  /-- `RXQ` (R46), the oldest byte first. -/
  rxq : List Byte
  /-- `TX` (R48), the first byte sent first. -/
  tx : List Byte
  /-- `STORE[u]` (R49). -/
  stores : PerUnit Store
  /-- The trace (R70), the first event first. -/
  trace : List Event
  /-- The model's own: the coming moves of the environment, one for each primitive or wait of the
  engine; past its end the environment does nothing. -/
  env : List EnvMove
  /-- The model's own: how many `eof_fill` draws have been taken (R81). -/
  draws : Nat
deriving DecidableEq, Repr

/-- The faults: the engine has no step. None of them is an I/O fault of the spec, which is the
phase `fatal` of a next state (R310). -/
inductive Fault where
  /-- Raised by `step` in `REFUSED` (R342). Safe: the spec gives that phase no step. -/
  | engineRefused
  /-- Raised by `step` in `HALTED` (R324). Safe: the spec gives that phase no step. -/
  | engineHalted (reason : HaltReason)
  /-- Raised by `step` in `FATAL` (R310). Safe: the spec gives that phase no step. -/
  | engineFatal (info : FatalInfo)
  /-- Raised by a store primitive on a store that is not open, which R36 and R39 say is never
  performed. Safe: the model stops where the spec says nothing. -/
  | storeNotOpen (u : UnitNo)
deriving DecidableEq, Repr

/-- The refusals: the spec tells a model to refuse the input. -/
inductive Refusal where
  /-- Raised by `exec` for an instruction with no meaning yet. Safe. -/
  | notModelled (mnemonic : String)
  /-- Raised by the reset sequence for a configuration outside R11 (R341, I19). Safe: it is no
  configuration of this hardware. -/
  | badConfiguration
  /-- Raised by the executors and the boot-sector send for an odd-length list passed to the codec
  (R145, R146, I26). Safe: the spec says that it cannot occur and that a model refuses it. -/
  | oddCodecList
deriving DecidableEq, Repr

/-- A transfer request before any transfer: R344 lets a model give it any value
(notes/assumptions 1). -/
def TransferRequest.initial : TransferRequest where
  dir := .read
  unit := .u0
  side := 0
  field := 0
  bufferAddress := 0
  startBlock := 0
  pageCount := 0
  subUnit := 0
  blockOffset := 0
  halfBlock := false
  cdf := 0
  totalWords := 0
  totalBytes := 0
  wc := 0
  ack := 0
  ok := false

/-- A unit that is in use and not protected. -/
def UnitConfig.plain : UnitConfig := ⟨true, false, false⟩

/-- A unit that is not in use. -/
def UnitConfig.unused : UnitConfig := ⟨false, false, false⟩

/-- The launch state: phase `RESET`, with the launch parameters of R341 (`cfg`, `units`, `stores`,
`rx0`) at the model's values (notes/assumptions 2 to 5). -/
def State.launch : State where
  phase := .reset
  cfg := Config.launch
  units := ⟨.plain, .unused, .unused, .unused⟩
  isOpen := ⟨false, false, false, false⟩
  cmd := 0
  w := ⟨0, 0, 0, 0⟩
  tr := .initial
  buf := []
  desync := false
  cancel := false
  rxq := []
  tx := []
  stores := ⟨.empty, .empty, .empty, .empty⟩
  trace := []
  env := []
  draws := 0

/-- The state at the end of a successful reset (R52): what the reset sequence of R341 makes of
`State.launch` (`launch_resets`, Laws/Reset.lean). -/
def State.reset : State :=
  { State.launch with phase := .idle, isOpen := ⟨true, false, false, false⟩ }

end Sys2Proof.Machine
end

