-- ==== Sys2Proof/Machine/Flags.lean ====
section
/-! DEFINITION. The three flags of 10_state.md R47 (`TR.ok`, `TR.half_block`, `desync`), the checks
that set them (42_resolver.md R217 to R224) and the acknowledgment words made of them (R120). -/

namespace Sys2Proof.Machine

/-- `TR.half_block` (R224): a write of an odd number of pages. -/
def halfBlockFlag (dir : Direction) (pages : Nat) : Bool :=
  dir == .write && pages % 2 == 1

/-- `read_protect` as it reads: false for a unit that is not in use (R36). -/
def UnitConfig.readProtected (u : UnitConfig) : Bool := u.inUse && u.readProtect

/-- `write_protect` as it reads: false for a unit that is not in use (R36). -/
def UnitConfig.writeProtected (u : UnitConfig) : Bool := u.inUse && u.writeProtect

/-- Check 1 fails (R218). -/
def unitUnavailable (u : UnitConfig) : Bool := !u.inUse

/-- Check 2 fails (R220). -/
def protectionViolation (dir : Direction) (u : UnitConfig) : Bool :=
  match dir with
  | .read => u.readProtected
  | .write => u.writeProtected

/-- Check 3 fails (R221), on unbounded naturals (R223). -/
def boundOverrun (cfg : Cfg) (start pages : Nat) : Bool :=
  cfg.numberOfBlocks < start + ceil2 pages

/-- Check 4 fails (R222): PAGE mode and field 0 only, on unbounded naturals (R223). -/
def residentOverlap (mode : Mode) (field : BitVec 3) (buffer : Word12) (totalWords : Nat) : Bool :=
  mode == .page && field == 0 && Config.residentBase < buffer.toNat + totalWords

/-- Which of the four checks fail; every check runs, whatever the others find (R217). -/
structure Checks where
  unit : Bool
  protect : Bool
  bound : Bool
  resident : Bool
deriving DecidableEq, Repr

/-- `TR.ok` (R217): no check fails. -/
def okFlag (c : Checks) : Bool := !(c.unit || c.protect || c.bound || c.resident)

/-- A reason bit, if its check fails. -/
def reasonBit (fails : Bool) (bit : Word12) : Word12 := if fails then bit else 0#12

/-- The reason bits of every failing check (R217, conflict C7). -/
def reasonBits (cfg : Cfg) (c : Checks) : Word12 :=
  reasonBit c.unit Config.bUnavail ||| reasonBit c.protect cfg.bProtect |||
    reasonBit c.bound cfg.bBound ||| reasonBit c.resident cfg.bResident

/-- A rejection's acknowledgment word (R300). -/
def nack (reasons : Word12) : Word12 := Config.ackNack ||| reasons

/-- The positive acknowledgment of a direction (R211). -/
def positiveAck (cfg : Cfg) : Direction → Word12
  | .read => Config.ackReadPending
  | .write => cfg.ackWritePending

/-- `TR.ack` (R217, R177). -/
def firstAck (cfg : Cfg) (dir : Direction) (c : Checks) : Word12 :=
  if okFlag c then positiveAck cfg dir else nack (reasonBits cfg c)

/-- `desync` after a drain check (R245). -/
def desyncFlag (before : Bool) (extra : List Byte) : Bool := before || !extra.isEmpty

/-- The final acknowledgment (R243, R254). -/
def finalAck (cfg : Cfg) (desync : Bool) : Word12 :=
  if desync then nack cfg.bDesync else Config.ackDone

end Sys2Proof.Machine
end

