-- ==== Sys2Proof/Machine/Operands.lean ====
section
/-! DEFINITION. The operands of a transfer command and the request the resolver builds from them
(30_encoding.md R101, R114 to R116; 42_resolver.md R200 to R226). -/

namespace Sys2Proof.Machine

/-- The unit of an index, of which only the last two bits matter. -/
def unitOfIndex (n : Nat) : UnitNo :=
  match n % 4 with
  | 0 => .u0
  | 1 => .u1
  | 2 => .u2
  | _ => .u3

/-- `TR.unit` (R205): `(b - 0x41) >> 1`. -/
def unitOf (b : Byte) : UnitNo := unitOfIndex ((b - 0x41#8) >>> 1).toNat

/-- `TR.side` (R206): `(~b) & 1`. -/
def sideOf (b : Byte) : BitVec 1 := (~~~b).setWidth 1

/-- `TR.dir` of a parameter block (R211). -/
def blockDirection : ParamBlock → Direction
  | .page dir .. => dir
  | .fixed dir .. => dir

/-- `TR.page_count` (R213, R214): in FIXED mode twice the block count, with no meaning of its own
for 0. -/
def blockPages : ParamBlock → Nat
  | .page _ pages .. => pages
  | .fixed _ _ _ _ _ blocks => 2 * blocks.toNat

/-- `TR.field` (R212). -/
def blockField : ParamBlock → BitVec 3
  | .page _ _ field .. => field
  | .fixed _ _ field .. => field

/-- `TR.buffer_address` (R213, R214): in FIXED mode the buffer index times 256. -/
def blockBuffer : ParamBlock → Word12
  | .page _ _ _ buffer _ => buffer
  | .fixed _ _ _ index _ _ => index.setWidth 12 <<< 8

/-- `TR.start_block` (R213, R214). -/
def blockStart : ParamBlock → Nat
  | .page _ _ _ _ start => start.toNat
  | .fixed _ _ _ _ start _ => start.toNat

/-- `TR.sub_unit` (R215): 0 in PAGE mode. -/
def blockSub : ParamBlock → BitVec 3
  | .page .. => 0#3
  | .fixed _ sub .. => sub

/-- The CDF word of a field (R115, R212). -/
def cdfWord (field : BitVec 3) : Word12 := Config.cdfBase ||| (field.setWidth 12 <<< 3)

/-- `block_offset(side, sub)` (R216). -/
def blockOffset (cfg : Cfg) (side : BitVec 1) (sub : BitVec 3) : Nat :=
  match cfg.mode with
  | .page => side.toNat * cfg.numberOfBlocks
  | .fixed =>
    (if cfg.fixedSideOffset then side.toNat * cfg.numberOfBlocks else 0) +
      sub.toNat * Config.subUnitBlocks

/-- `W[0..n-1]` loaded with the parameter words (R41): in PAGE mode `W[3]` is not written. -/
def ParamRegs.load (r : ParamRegs) : List Word12 → ParamRegs
  | [w0, w1, w2] => { r with w0 := w0, w1 := w1, w2 := w2 }
  | [w0, w1, w2, w3] => ⟨w0, w1, w2, w3⟩
  | _ => r

/-- The four checks of the resolver (R218 to R222). -/
def runChecks (cfg : Cfg) (u : UnitConfig) (p : ParamBlock) : Checks where
  unit := unitUnavailable u
  protect := protectionViolation (blockDirection p) u
  bound := boundOverrun cfg (blockStart p) (blockPages p)
  resident :=
    residentOverlap cfg.mode (blockField p) (blockBuffer p) (blockPages p * Config.pageSize)

/-- The transfer request of a command byte and a parameter block (R200). -/
def resolveBlock (cfg : Cfg) (units : PerUnit UnitConfig) (b : Byte) (p : ParamBlock) :
    TransferRequest where
  dir := blockDirection p
  unit := unitOf b
  side := sideOf b
  field := blockField p
  bufferAddress := blockBuffer p
  startBlock := blockStart p
  pageCount := blockPages p
  subUnit := blockSub p
  blockOffset := blockOffset cfg (sideOf b) (blockSub p)
  halfBlock := halfBlockFlag (blockDirection p) (blockPages p)
  cdf := cdfWord (blockField p)
  totalWords := blockPages p * Config.pageSize
  totalBytes := 2 * (blockPages p * Config.pageSize)
  wc := neg12 (blockPages p * Config.pageSize)
  ack := firstAck cfg (blockDirection p) (runChecks cfg (units.get (unitOf b)) p)
  ok := okFlag (runChecks cfg (units.get (unitOf b)) p)

/-- The transfer request of a command byte and the parameter registers (R200): every field is
built anew (R202). -/
def resolve (cfg : Cfg) (units : PerUnit UnitConfig) (b : Byte) (w : ParamRegs) :
    TransferRequest :=
  resolveBlock cfg units b (decodeParams cfg.mode w.w0 w.w1 w.w2 w.w3)

/-- The byte offset of a transfer in its unit's store, the same for reads and writes (R79). -/
def transferOffset (tr : TransferRequest) : Nat :=
  (tr.startBlock + tr.blockOffset) * Config.blockBytes

/-- The setup words as sent (R226): the CDF word, then the word count. -/
def setupBytes (tr : TransferRequest) : List Byte :=
  encodeControlWord tr.cdf ++ encodeControlWord tr.wc

end Sys2Proof.Machine
end

