-- ==== Sys2Proof/Machine/Ops.lean ====
section
/-! DEFINITION. The operations every command is made of: the bytes of a store, one move of the
environment, the seven port primitives of 00_scope.md R15, the entry of a fatal fault (R310), the
orderly close of the stores and the cancel shutdown (R320). -/

namespace Sys2Proof.Machine

/-! ### Memory: the cells of a store -/

/-- The byte at an offset; an unlisted offset reads as zero. -/
def Memory.read : Memory → Nat → Byte
  | [], _ => 0#8
  | c :: rest, a => if c.1 = a then c.2 else Memory.read rest a

/-- One byte stored, in the one form of a memory. -/
def Memory.write : Memory → Nat → Byte → Memory
  | [], a, b => if b = 0#8 then [] else [(a, b)]
  | c :: rest, a, b =>
    if a < c.1 then (if b = 0#8 then c :: rest else (a, b) :: c :: rest)
    else if a = c.1 then (if b = 0#8 then rest else (a, b) :: rest)
    else c :: Memory.write rest a b

/-- Bytes stored at consecutive offsets. -/
def Memory.writeBytes : Memory → Nat → List Byte → Memory
  | m, _, [] => m
  | m, a, b :: bs => Memory.writeBytes (Memory.write m a b) (a + 1) bs

/-- The byte of a store at an offset, `none` at or past its end (R81). -/
def Store.byteAt (s : Store) (a : Nat) : Option Byte :=
  if a < s.len then some (s.cells.read a) else none

/-- `n` bytes from an offset (R81): a byte past the end is the next of the draws, the `i`-th byte
read taking draw number `draws + i`. -/
def Store.readBytes (s : Store) (off n draws : Nat) : List Byte :=
  (List.range n).map fun i => (s.byteAt (off + i)).getD (Config.eofFill (draws + i))

/-- Bytes stored from an offset (R82): the store grows to hold them, and a gap before them reads
as zero. Storing no bytes changes nothing (R256; notes/assumptions 8). -/
def Store.writeBytes (s : Store) (off : Nat) (bs : List Byte) : Store :=
  if bs = [] then s
  else ⟨max s.len (off + bs.length), s.cells.writeBytes off bs⟩

/-! ### Updates of the state -/

/-- The state in another phase. -/
def State.withPhase (s : State) (p : Phase) : State := { s with phase := p }

/-- The state with another receive queue (R46). -/
def State.withRxq (s : State) (q : List Byte) : State := { s with rxq := q }

/-- The state with other transmitted bytes (R48). -/
def State.withTx (s : State) (bs : List Byte) : State := { s with tx := bs }

/-- The state with another command byte (R40). -/
def State.withCmd (s : State) (b : Byte) : State := { s with cmd := b }

/-- The state with other parameter registers (R41). -/
def State.withParams (s : State) (w : ParamRegs) : State := { s with w := w }

/-- The state with another transfer request (R42). -/
def State.withRequest (s : State) (tr : TransferRequest) : State := { s with tr := tr }

/-- The state with another buffer (R43). -/
def State.withBuf (s : State) (bs : List Byte) : State := { s with buf := bs }

/-- The state with another desync flag (R47). -/
def State.withDesync (s : State) (d : Bool) : State := { s with desync := d }

/-- The state with other open stores (R39). -/
def State.withOpen (s : State) (o : PerUnit Bool) : State := { s with isOpen := o }

/-- The state with another count of draws taken (R81). -/
def State.withDraws (s : State) (n : Nat) : State := { s with draws := n }

/-- The state with one more event in its trace (R70). -/
def State.record (s : State) (e : Event) : State := { s with trace := s.trace ++ [e] }

/-- The bytes the first move of the environment sends. -/
def headArrive : List EnvMove → List Byte
  | [] => []
  | m :: _ => m.arrive

/-- Whether the first move of the environment sets the cancel request. -/
def headCancel : List EnvMove → Bool
  | [] => false
  | m :: _ => m.cancel

/-- Whether, and how far into it, the first move of the environment makes the primitive fail. -/
def headFail : List EnvMove → Option Nat
  | [] => none
  | m :: _ => m.fail

/-- The environment's move before the engine's next primitive (R33): the client's bytes join the
receive queue (R46) and a cancel request is set, never cleared (R45). -/
def State.advance (s : State) : State :=
  { s with
    rxq := s.rxq ++ headArrive s.env
    cancel := s.cancel || headCancel s.env
    env := s.env.tail }

/-- The storage environment's choice for the engine's next primitive (R311). -/
def State.failNow (s : State) : Option Nat := headFail s.env

/-! ### Faults -/

/-- `raise Fatal(IoError(p, u))` (R310): the engine moves to the final phase `FATAL`, keeps `info`
and changes nothing else. -/
def raiseFatal (p : Primitive) (u : Option UnitNo) (s : State) : State :=
  (s.withPhase (.fatal ⟨p, u⟩)).record (.fatal ⟨p, u⟩)

/-- `goto Idle` (R173): the return from a command or a rejection (R324). -/
def State.goIdle (s : State) : State := s.withPhase .idle

/-- What a primitive comes to: it is done, with a result, or the procedure stops here, because the
primitive failed (R16), waits for bytes (R31), or cannot be performed. -/
inductive Attempt (α : Type) where
  | ok (a : α) (s : State)
  | stop (o : Host.Outcome State Fault Refusal)

/-- One primitive after another: nothing after a stop happens (R16). -/
def Attempt.andThen {α β : Type} (x : Attempt α) (f : α → State → Attempt β) : Attempt β :=
  match x with
  | .ok a s => f a s
  | .stop o => .stop o

/-- The outcome of a procedure run to its end or to its stop. -/
def Attempt.outcome {α : Type} : Attempt α → Host.Outcome State Fault Refusal
  | .ok _ s => .next s
  | .stop o => o

/-! ### The port primitives (R15) -/

/-- `Recv(n)`: exactly `n` bytes, the oldest first; it waits, in the same phase, while fewer are
queued (R31). A failing one may have taken any of the first queued bytes (R311). -/
def recv (n : Nat) (s : State) : Attempt (List Byte) :=
  match s.failNow with
  | some k =>
    .stop (.next (raiseFatal .recv none (s.advance.withRxq (s.advance.rxq.drop k))))
  | none =>
    if s.advance.rxq.length < n then .stop (.next s.advance)
    else
      .ok (s.advance.rxq.take n)
        ((s.advance.withRxq (s.advance.rxq.drop n)).record (.recv (s.advance.rxq.take n)))

/-- `Send(bs)`. A failing one may have delivered any of the first bytes (R311). -/
def send (bs : List Byte) (s : State) : Attempt Unit :=
  match s.failNow with
  | some k =>
    .stop (.next (raiseFatal .send none (s.advance.withTx (s.advance.tx ++ bs.take k))))
  | none => .ok () ((s.advance.withTx (s.advance.tx ++ bs)).record (.send bs))

/-- `Drain()`: every byte queued at this instant, without waiting. A failing one may have taken
any of the first queued bytes (R311). -/
def drain (s : State) : Attempt (List Byte) :=
  match s.failNow with
  | some k =>
    .stop (.next (raiseFatal .drain none (s.advance.withRxq (s.advance.rxq.drop k))))
  | none => .ok s.advance.rxq ((s.advance.withRxq []).record (.drain s.advance.rxq))

/-- `StoreRead(u, off, n)`: a failing one changes nothing (R311). -/
def storeRead (u : UnitNo) (off n : Nat) (s : State) : Attempt (List Byte) :=
  if s.isOpen.get u then
    match s.failNow with
    | some _ => .stop (.next (raiseFatal .storeRead (some u) s.advance))
    | none =>
      .ok ((s.stores.get u).readBytes off n s.draws)
        ((s.advance.withDraws (s.advance.draws + n)).record
          (.storeRead u off n ((s.stores.get u).readBytes off n s.draws)))
  else .stop (.fault (.storeNotOpen u))

/-- The state with bytes written to a unit's store. -/
def State.writeStore (s : State) (u : UnitNo) (off : Nat) (bs : List Byte) : State :=
  { s with stores := s.stores.set u ((s.stores.get u).writeBytes off bs) }

/-- `StoreWrite(u, off, bs)`: a failing one may have written any of the first bytes (R311). -/
def storeWrite (u : UnitNo) (off : Nat) (bs : List Byte) (s : State) : Attempt Unit :=
  if s.isOpen.get u then
    match s.failNow with
    | some k =>
      .stop (.next (raiseFatal .storeWrite (some u) (s.advance.writeStore u off (bs.take k))))
    | none => .ok () ((s.advance.writeStore u off bs).record (.storeWrite u off bs))
  else .stop (.fault (.storeNotOpen u))

/-- `StoreFlush(u)`: the barrier of R94, which no engine event observes (R95); a failing one
changes nothing (R311). -/
def storeFlush (u : UnitNo) (s : State) : Attempt Unit :=
  if s.isOpen.get u then
    match s.failNow with
    | some _ => .stop (.next (raiseFatal .storeFlush (some u) s.advance))
    | none => .ok () (s.advance.record (.storeFlush u))
  else .stop (.fault (.storeNotOpen u))

/-- `StoreClose(u)` with `open[u] <- false` (R184, R320); a failing one changes nothing (R311). -/
def storeClose (u : UnitNo) (s : State) : Attempt Unit :=
  if s.isOpen.get u then
    match s.failNow with
    | some _ => .stop (.next (raiseFatal .storeClose (some u) s.advance))
    | none =>
      .ok () ((s.advance.withOpen (s.advance.isOpen.set u false)).record (.storeClose u))
  else .stop (.fault (.storeNotOpen u))

/-! ### Shutdown -/

/-- A unit's turn at shutdown: flushed, then closed, if it is open (R184). -/
def closeUnit (u : UnitNo) (s : State) : Attempt Unit :=
  if s.isOpen.get u then
    (storeFlush u s).andThen fun _ s => storeClose u s
  else .ok () s

/-- Every open store flushed and closed, units 0 to 3 in order (decision D27). -/
def closeAll (s : State) : Attempt Unit :=
  (closeUnit .u0 s).andThen fun _ s =>
  (closeUnit .u1 s).andThen fun _ s =>
  (closeUnit .u2 s).andThen fun _ s => closeUnit .u3 s

/-- `phase <- HALTED(reason)`, with its event (R70). -/
def halt (r : HaltReason) (s : State) : State := (s.withPhase (.halted r)).record (.halt r)

/-- `CancelShutdown()` (R320), the entry of the one asynchronous event: it sends nothing, takes
nothing from the client and never powers off. -/
def cancelShutdown (s : State) : Attempt Unit :=
  (closeAll s).andThen fun _ s => .ok () (halt .cancel s)

/-! ### Reset -/

/-- The reset sequence (R341) in phase `RESET`: a configuration outside R11 is refused, an engine
without unit 0 goes to `REFUSED` (R342), any other to `IDLE` with the stores of the units in use
open. It performs no primitive. -/
def resetSequence (s : State) : Host.Outcome State Fault Refusal :=
  if s.cfg.wf then
    if s.units.u0.inUse then
      .next { s with
        phase := .idle
        isOpen := s.units.map UnitConfig.inUse
        cancel := false
        tx := [] }
    else .next ((s.withPhase .refused).record .refused)
  else .refused .badConfiguration

end Sys2Proof.Machine
end

