-- ==== Sys2Proof/Machine/Bootstrap.lean ====
section
/-! DEFINITION. The two boot commands (44_bootstrap.md): `BOOTSECT` (R270) and `HELPBOOT` (R272). -/

namespace Sys2Proof.Machine

/-! ### The boot sector send -/

/-- `BootSectorSend()` (R270, R271): one page of unit 0, converted, then the trailer byte. -/
def bootSectorSend (s : State) : Attempt Unit :=
  (storeRead .u0 0 Config.bootSectorBytes s).andThen fun bs s =>
    match storeToWire bs with
    | some wire =>
      (send wire (s.withBuf bs)).andThen fun _ s =>
      (send [Config.bootTrailer] s).andThen fun _ s => .ok () s.goIdle
    | none => .stop (.refused .oddCodecList)

/-- `BOOTSECT` (R181). -/
def execBootsect (s : State) : Host.Outcome State Fault Refusal :=
  (bootSectorSend (s.withPhase .bootsect)).outcome

/-! ### The bootstrap injector -/

/-- `help_byte(w, l)` (R273), from the configuration's table. -/
def helpByte (cfg : Cfg) (w : Word12) (link : Bool) : Byte :=
  cfg.helpBytes.getD (2 * (w &&& 0o177#12).toNat + link.toNat) 0#8

/-- The link flag a word's successors give it: bit 9 of the next word, false for the last word
(R273, decision D22). -/
def linkOf : List Word12 → Bool
  | [] => false
  | next :: _ => next.getLsbD 9

/-- Chunk 1: the HELP-loader sequence, one byte per word (R273). -/
def helpChunk (cfg : Cfg) : List Word12 → List Byte
  | [] => []
  | w :: rest => helpByte cfg w (linkOf rest) :: helpChunk cfg rest

/-- A word of the HELP table is forbidden (R274). -/
def helpForbidden (cfg : Cfg) : Bool :=
  cfg.helpTable.any fun w => w &&& cfg.helpForbiddenMask != 0#12

/-- The patches (R277), each in place of one word. -/
def patchWords (cfg : Cfg) (ws : List Word12) : List Word12 :=
  ((ws.set cfg.patchAddrOff cfg.patchAddrVal).set cfg.patchWcOff cfg.patchWcVal).set
    cfg.patchCdfOff Config.patchCdfVal

/-- Chunk 3 from the bytes of block 0 (R276 to R278). -/
def bootPrefixBytes (cfg : Cfg) (block : List Byte) : List Byte :=
  encodeControlWords (patchWords cfg ((storeDecodeWords block).take cfg.bootPrefixLen))

/-- `BootstrapInject()` (R272): three chunks, each after the one before (R279), or nothing at all
when a HELP word is forbidden (R274). -/
def bootstrapInject (s : State) : Attempt Unit :=
  if helpForbidden s.cfg then .ok () s.goIdle
  else
    (send (helpChunk s.cfg s.cfg.helpTable) s).andThen fun _ s =>
    (send (encodeControlWords s.cfg.stage2Table) s).andThen fun _ s =>
    (storeRead .u0 0 Config.blockBytes s).andThen fun block s =>
    (send (bootPrefixBytes s.cfg block) (s.withBuf (bootPrefixBytes s.cfg block))).andThen
      fun _ s => .ok () s.goIdle

/-- `HELPBOOT` (R180). -/
def execHelpboot (s : State) : Host.Outcome State Fault Refusal :=
  (bootstrapInject (s.withPhase .help)).outcome

end Sys2Proof.Machine
end

