-- ==== Sys2Proof/Machine/Control.lean ====
section
/-! DEFINITION. The commands that move no data: `QUIT` (R184) and `IGNORED` (R185). -/

namespace Sys2Proof.Machine

/-- The power-off event of `QUIT`, when the configuration asks for it (R184, R333). -/
def powerOffIf (s : State) : State := if s.cfg.powerOff then s.record .powerOff else s

/-- `QUIT` (R184): every open store is flushed and closed, then the engine halts. -/
def execQuit (s : State) : Host.Outcome State Fault Refusal :=
  ((closeAll (s.withPhase .quit)).andThen fun _ s => .ok () (halt .quit (powerOffIf s))).outcome

/-- `IGNORED` (R185): nothing is sent, nothing more is taken, and the engine is idle again; the
log line has no effect on the state (R325). -/
def execIgnored (_b : Byte) (s : State) : Host.Outcome State Fault Refusal := .next s.goIdle

end Sys2Proof.Machine
end

