-- ==== Sys2Proof/Machine/Transfer.lean ====
section
/-! DEFINITION. The transfer commands (41_dispatcher.md R176, R186 to R193): the transfer procedure
`Xfer`, one definition per phase of 10_state.md R30, and the meaning of each of the eight letters. -/

namespace Sys2Proof.Machine

/-- The state in another phase of the transfer procedure. -/
def State.toXfer (s : State) (p : XferPhase) : State := s.withPhase (.xfer p)

/-! ### The resolver (42_resolver.md) -/

/-- `PARAMS` (R200, R201): the whole parameter block is taken, whatever it holds, and `TR` built. -/
def xferParams (b : Byte) (s : State) : Attempt Unit :=
  (recv (2 * Config.paramWordCount s.cfg.mode) s).andThen fun bs s =>
    .ok () (((s.withParams (s.w.load (decodeWireWords bs))).withRequest
      (resolve s.cfg s.units b (s.w.load (decodeWireWords bs)))).toXfer .setup)

/-- `SETUP` (R226): the CDF word and the word count are sent, whatever validation found. -/
def xferSetup (s : State) : Attempt Unit :=
  (send (setupBytes s.tr) s).andThen fun _ s => .ok () (s.toXfer .ack)

/-! ### The dispatcher's acknowledgment (R176) -/

/-- Where the procedure goes after the first acknowledgment (R176): back to `IDLE` on a rejection,
else to the executor of the direction, which clears `desync` (R240, R250). -/
def afterAck (s : State) : State :=
  if s.tr.ok then
    match s.tr.dir with
    | .read => (s.withDesync false).toXfer .rdFetch
    | .write => (s.withDesync false).toXfer .wrRecv
  else s.goIdle

/-- `ACK` (R176): the first acknowledgment word. -/
def xferAck (s : State) : Attempt Unit :=
  (send (encodeControlWord s.tr.ack) s).andThen fun _ s => .ok () (afterAck s)

/-! ### The read executor (R240) -/

/-- `RD_FETCH` (R241). -/
def rdFetch (s : State) : Attempt Unit :=
  (storeRead s.tr.unit (transferOffset s.tr) s.tr.totalBytes s).andThen fun bs s =>
    .ok () ((s.withBuf bs).toXfer .rdSend)

/-- `RD_SEND` (R242). -/
def rdSend (s : State) : Attempt Unit :=
  match storeToWire s.buf with
  | some wire => (send wire s).andThen fun _ s => .ok () (s.toXfer .rdDrain)
  | none => .stop (.refused .oddCodecList)

/-- The drain check (R245), then another phase: what it takes is discarded. -/
def drainCheck (next : XferPhase) (s : State) : Attempt Unit :=
  (drain s).andThen fun extra s =>
    .ok () ((s.withDesync (desyncFlag s.desync extra)).toXfer next)

/-- `RD_FINAL` (R243). -/
def rdFinal (s : State) : Attempt Unit :=
  (send (encodeControlWord (finalAck s.cfg s.desync)) s).andThen fun _ s => .ok () s.goIdle

/-! ### The write executor (R250) -/

/-- `WR_RECV` (R251). -/
def wrRecv (s : State) : Attempt Unit :=
  (recv s.tr.totalBytes s).andThen fun bs s =>
    .ok () ((s.withBuf bs).toXfer .wrDrain)

/-- The half-block pad (R253): one page of zero bytes, and one page more to write. -/
def padBuffer (s : State) : State :=
  if s.tr.halfBlock then
    (s.withBuf (s.buf ++ List.replicate Config.pageBytes 0#8)).withRequest { s.tr with
      totalWords := s.tr.totalWords + Config.pageSize
      totalBytes := 2 * (s.tr.totalWords + Config.pageSize) }
  else s

/-- `WR_PAD` (R253): no primitive. -/
def wrPad (s : State) : Attempt Unit := .ok () ((padBuffer s).toXfer .wrAck)

/-- Where a write goes after its acknowledgment (R255): nothing is committed after a desync. -/
def afterWrAck (s : State) : State := if s.desync then s.goIdle else s.toXfer .wrCommit

/-- `WR_ACK` (R254). -/
def wrAck (s : State) : Attempt Unit :=
  (send (encodeControlWord (finalAck s.cfg s.desync)) s).andThen fun _ s => .ok () (afterWrAck s)

/-- `WR_COMMIT` (R256). -/
def wrCommit (s : State) : Attempt Unit :=
  match unwireToStore s.buf with
  | some bytes =>
    (storeWrite s.tr.unit (transferOffset s.tr) bytes s).andThen fun _ s =>
      .ok () (s.toXfer .wrFlush)
  | none => .stop (.refused .oddCodecList)

/-- `WR_FLUSH` (R256). -/
def wrFlush (s : State) : Attempt Unit :=
  (storeFlush s.tr.unit s).andThen fun _ s => .ok () s.goIdle

/-! ### The procedure -/

/-- The next primitive of the transfer procedure of command byte `b`, and the phase after it
(R31): the engine's step in the spec's own grain. -/
def xferStep (b : Byte) (p : XferPhase) (s : State) : Attempt Unit :=
  match p with
  | .params => xferParams b s
  | .setup => xferSetup s
  | .ack => xferAck s
  | .rdFetch => rdFetch s
  | .rdSend => rdSend s
  | .rdDrain => drainCheck .rdFinal s
  | .rdFinal => rdFinal s
  | .wrRecv => wrRecv s
  | .wrDrain => drainCheck .wrPad s
  | .wrPad => wrPad s
  | .wrAck => wrAck s
  | .wrCommit => wrCommit s
  | .wrFlush => wrFlush s

/-- At most `n` primitives of the transfer procedure, from the phase the state is in, until the
procedure ends, waits or stops. -/
def xferRun (b : Byte) : Nat → State → Attempt Unit
  | 0, s => .ok () s
  | n + 1, s =>
    match s.phase with
    | .xfer p => (xferStep b p s).andThen fun _ s => xferRun b n s
    | _ => .ok () s

/-- As many primitives as the longest transfer has: a write, from `PARAMS` to `WR_FLUSH`. -/
def xferLength : Nat := 9

/-- `phase <- PARAMS` (R176), but for a transfer that is already under way: that one goes on in
the phase it waits in (R31). -/
def enterXfer (s : State) : State :=
  match s.phase with
  | .xfer _ => s
  | _ => s.toXfer .params

/-- `Xfer(b)` (R176), from its start or from where it waits. -/
def transfer (b : Byte) (s : State) : Host.Outcome State Fault Refusal :=
  (xferRun b xferLength (enterXfer s)).outcome

/-- `XFER_A` (R186). -/
def execXferA (s : State) : Host.Outcome State Fault Refusal := transfer 0x41#8 s

/-- `XFER_B` (R187). -/
def execXferB (s : State) : Host.Outcome State Fault Refusal := transfer 0x42#8 s

/-- `XFER_C` (R188). -/
def execXferC (s : State) : Host.Outcome State Fault Refusal := transfer 0x43#8 s

/-- `XFER_D` (R189). -/
def execXferD (s : State) : Host.Outcome State Fault Refusal := transfer 0x44#8 s

/-- `XFER_E` (R190). -/
def execXferE (s : State) : Host.Outcome State Fault Refusal := transfer 0x45#8 s

/-- `XFER_F` (R191). -/
def execXferF (s : State) : Host.Outcome State Fault Refusal := transfer 0x46#8 s

/-- `XFER_G` (R192). -/
def execXferG (s : State) : Host.Outcome State Fault Refusal := transfer 0x47#8 s

/-- `XFER_H` (R193). -/
def execXferH (s : State) : Host.Outcome State Fault Refusal := transfer 0x48#8 s

end Sys2Proof.Machine
end

