-- ==== Sys2Proof/Machine/Dispatch.lean ====
section
/-! DEFINITION. `exec`: one arm per command (30_encoding.md R102), each one call of its meaning. -/

namespace Sys2Proof.Machine

/-- The procedure of a command (R170), run to its end, to a wait, or to a fault. -/
def exec (i : Instr) (s : State) : Host.Outcome State Fault Refusal :=
  match i with
  | .helpboot => Sys2Proof.Machine.execHelpboot s
  | .bootsect => Sys2Proof.Machine.execBootsect s
  | .xferA => Sys2Proof.Machine.execXferA s
  | .xferB => Sys2Proof.Machine.execXferB s
  | .xferC => Sys2Proof.Machine.execXferC s
  | .xferD => Sys2Proof.Machine.execXferD s
  | .xferE => Sys2Proof.Machine.execXferE s
  | .xferF => Sys2Proof.Machine.execXferF s
  | .xferG => Sys2Proof.Machine.execXferG s
  | .xferH => Sys2Proof.Machine.execXferH s
  | .quit => Sys2Proof.Machine.execQuit s
  | .ignored b => Sys2Proof.Machine.execIgnored b s

end Sys2Proof.Machine
end

