-- ==== Sys2Proof/Machine/Fetch.lean ====
section
/-! DEFINITION. Taking a command in `IDLE` (41_dispatcher.md R170, R171), and placing one where the
engine takes it. -/

namespace Sys2Proof.Machine

/-- `IDLE` (R170): after the environment's move, a set cancel request is taken before a queued
byte (R171); with neither the engine waits; else it takes one byte into `CMD`. -/
def fetchCommand (s : State) : Attempt Byte :=
  if s.advance.cancel then .stop (cancelShutdown s.advance).outcome
  else
    match s.advance.rxq with
    | [] => .stop (.next s.advance)
    | b :: rest =>
      match s.failNow with
      | some k =>
        .stop (.next (raiseFatal .recv none (s.advance.withRxq (s.advance.rxq.drop k))))
      | none => .ok b (((s.advance.withRxq rest).withCmd b).record (.recv [b]))

/-- The bytes of an instruction with its parameter block in a mode (R103). -/
def instrLength (mode : Mode) (i : Instr) : Nat :=
  if i.isTransfer then 1 + 2 * Config.paramWordCount mode else 1

/-- The state with an instruction of the opcode table, its parameter bytes above `nbits` zero, at
the front of the receive queue of an engine that is idle and undisturbed. -/
def placeInstruction (s : State) (nbits w : Nat) : State :=
  { s with
    phase := .idle
    cancel := false
    env := []
    rxq := tableBytes nbits w
        (instrLength s.cfg.mode (decodeCommand (BitVec.ofNat 8 (w % 2 ^ nbits)))) ++ s.rxq }

end Sys2Proof.Machine
end

