-- ==== Sys2Proof/Machine/Step.lean ====
section
/-! DEFINITION. One step of the machine (10_state.md R31). -/

namespace Sys2Proof.Machine

/-- One step: the reset sequence in `RESET` (R341); in `IDLE` a command taken (R170) and its
procedure run; inside a procedure, the procedure of `CMD` taken up where it waits (R31, R172); no
step in a final phase (R30). -/
def step (s : State) : Host.Outcome State Fault Refusal :=
  match s.phase with
  | .reset => resetSequence s
  | .refused => .fault .engineRefused
  | .idle =>
    match fetchCommand s with
    | .ok b s' => exec (decodeCommand b) s'
    | .stop o => o
  | .xfer _ => exec (decodeCommand s.cmd) s
  | .bootsect => exec (decodeCommand s.cmd) s
  | .help => exec (decodeCommand s.cmd) s
  | .quit => exec (decodeCommand s.cmd) s
  | .halted r => .fault (.engineHalted r)
  | .fatal i => .fault (.engineFatal i)

/-- The state whose next step takes and runs the opcode-table instruction `w`: its bytes stand at
the front of the receive queue, the engine is idle, no cancel request is set and the environment
does nothing (notes/assumptions 6). -/
def State.withFetchWord (s : State) (nbits w : Nat) : State := placeInstruction s nbits w

end Sys2Proof.Machine
end

