-- ==== Sys2Proof/Safety.lean ====
section
/-! DEFINITION. What a sound state of the engine is, and what its steps are asked to keep. -/

namespace Sys2Proof.Machine

/-- The engine is started: its configuration is one of this hardware (R11), unit 0 is in use (R35)
and exactly the stores of the units in use are open (R39). -/
def Started (s : State) : Prop :=
  s.cfg.wf ∧ s.units.u0.inUse = true ∧ s.isOpen = s.units.map UnitConfig.inUse

/-- What the resolver's checks let through (R218 to R221): the unit is in use and not protected in
the transfer's direction, and the transfer ends within `NUMBER_OF_BLOCKS`. -/
def Permitted (s : State) : Prop :=
  (s.units.get s.tr.unit).inUse = true ∧
    protectionViolation s.tr.dir (s.units.get s.tr.unit) = false ∧
    s.tr.startBlock + ceil2 s.tr.pageCount ≤ s.cfg.numberOfBlocks

/-- The request that the resolver builds of `CMD` and `W` (R200). -/
def State.resolved (s : State) : TransferRequest := resolve s.cfg s.units s.cmd s.w

/-- `TR` is the request built for the command under way (R202), of direction `dir`, and every check
let it through (R176, R217). -/
def Accepted (dir : Direction) (s : State) : Prop :=
  s.tr = s.resolved ∧ s.tr.ok = true ∧ s.tr.dir = dir

/-- What holds of `TR`, `BUF` and `desync` in each phase of a transfer: an executor runs only on an
accepted request (R259), a write commits whole blocks (R257), and the lists that reach the codec
have even length (R145, R146). -/
def XferSound (p : XferPhase) (s : State) : Prop :=
  match p with
  | .params => True
  | .setup | .ack => s.tr = s.resolved
  | .rdFetch => Accepted .read s ∧ s.desync = false
  | .rdSend => Permitted s ∧ s.buf.length % 2 = 0
  | .rdDrain | .rdFinal => True
  | .wrRecv => Accepted .write s ∧ s.desync = false
  | .wrDrain | .wrPad => Accepted .write s ∧ s.buf.length = s.tr.totalBytes
  | .wrAck | .wrCommit => Permitted s ∧ s.buf.length = 512 * ceil2 s.tr.pageCount
  | .wrFlush => Permitted s

/-- A sound state, phase by phase. Between two steps the engine is never inside a boot command or
`QUIT`, which do not wait: that is the model's grain (notes/assumptions 9), and the one form of the
stores is the model's too (notes/assumptions 5). -/
def Sound (s : State) : Prop :=
  (∀ u, (s.stores.get u).wf) ∧
  match s.phase with
  | .reset => True
  | .refused => s.cfg.wf ∧ s.units.u0.inUse = false
  | .idle => Started s
  | .xfer p => Started s ∧ (decodeCommand s.cmd).isTransfer = true ∧ XferSound p s
  | .bootsect | .help | .quit => False
  | .halted _ => s.cfg.wf ∧ ∀ u, s.isOpen.get u = false
  | .fatal _ => s.cfg.wf ∧ ∀ u, s.isOpen.get u = true → (s.units.get u).inUse = true

/-- The phases the engine never leaves (R30). -/
def Phase.isFinal : Phase → Bool
  | .refused | .halted _ | .fatal _ => true
  | .reset | .idle | .xfer _ | .bootsect | .help | .quit => false

/-- The phases in which a transfer waits for bytes (R31): the only ones of a procedure that the
engine can be in between two steps. -/
def Phase.isWait : Phase → Bool
  | .xfer .params | .xfer .wrRecv => true
  | _ => false

/-- The environment makes no primitive fail (R311). -/
def NoFailures (s : State) : Prop := ∀ m ∈ s.env, m.fail = none

/-- The bytes that arrive with the first `k` moves of the environment (R46). -/
def State.arrived (s : State) (k : Nat) : List Byte := (s.env.take k).flatMap EnvMove.arrive

/-- How many bytes the parameter block has in the mode in force (R103). -/
def State.paramLength (s : State) : Nat := 2 * Config.paramWordCount s.cfg.mode

/-- The parameter block a transfer command finds at the front of the queue (R201). -/
def State.paramBlock (s : State) : List Byte := (s.rxq ++ s.arrived 1).take s.paramLength

/-- The parameter registers after a transfer command has taken its parameter block (R41). -/
def State.paramRegs (s : State) : ParamRegs := s.w.load (decodeWireWords s.paramBlock)

/-- The request the resolver builds for a transfer command (R200). -/
def State.request (s : State) (i : Instr) : TransferRequest :=
  resolve s.cfg s.units (encodeCommand i) s.paramRegs

/-- The engine is where a transfer takes its parameter block: its command byte has just been taken,
or it waits for the block (R201, R350). -/
def State.AtParams (s : State) : Prop := s.phase = .idle ∨ s.phase = .xfer .params

/-- `tr` is the request that the transfer `i` works on when it is begun or taken up at `s`: the one
its parameter block asks for, or, in a sound wait for write data, the one in `TR`. -/
def State.Serves (s : State) (i : Instr) (tr : TransferRequest) : Prop :=
  (s.AtParams ∧ tr = s.request i) ∨ (s.phase = .xfer .wrRecv ∧ Sound s ∧ tr = s.tr)

/-- A transfer's request once the half-block pad has counted its page (R253). -/
def TransferRequest.padded (tr : TransferRequest) : TransferRequest :=
  if tr.halfBlock then
    { tr with
      totalWords := tr.totalWords + Config.pageSize
      totalBytes := 2 * (tr.totalWords + Config.pageSize) }
  else tr

/-- The place of a unit in the table (R34). -/
def UnitNo.index : UnitNo → Nat
  | .u0 => 0
  | .u1 => 1
  | .u2 => 2
  | .u3 => 3

/-- The events of an orderly shutdown (R184): each open store flushed, then closed. -/
def closeEvents (isOpen : PerUnit Bool) : List Event :=
  [UnitNo.u0, .u1, .u2, .u3].flatMap fun u =>
    if isOpen.get u then [.storeFlush u, .storeClose u] else []

/-- The bytes a write commits, in wire layout (R253): the data, and for an odd page count one page
of zeros. -/
def paddedData (tr : TransferRequest) (data : List Byte) : List Byte :=
  if tr.halfBlock then data ++ List.replicate Config.pageBytes 0#8 else data

/-- The bytes that the sends of a trace put on the wire (R72). -/
def sentBytes : List Event → List Byte
  | [] => []
  | .send bs :: rest => bs ++ sentBytes rest
  | _ :: rest => sentBytes rest

/-- Whether an event is a store primitive's (R70). -/
def Event.isStoreEvent : Event → Bool
  | .storeRead .. | .storeWrite .. | .storeFlush _ | .storeClose _ => true
  | .recv _ | .send _ | .drain _ | .powerOff | .halt _ | .fatal _ | .refused => false

end Sys2Proof.Machine
end

