-- ==== Sys2Proof/Certificates/Slice0/Obligations.lean ====
section
/-! DEFINITION. The statements for the provers. Where one names `draws`, it speaks of the
counter that tells one byte read past the end of a store from the next: the model's own field, no
state of the spec's (notes/assumptions 14). -/

open Sys2Proof Sys2Proof.Machine

/-! ### Codec (40_codec.md) -/

/-- R147: the four round trips of the codec, on lists with reserved bits clear, on lists with any
reserved bits (each trip clears them), and on words. -/
def Obligations.CodecRoundTrips : Prop :=
  (∀ bs : List Byte, bs.length % 2 = 0 → (∀ b ∈ bs, b &&& 0o300#8 = 0#8) →
    (unwireToStore bs).bind storeToWire = some bs) ∧
  (∀ ss : List Byte, ss.length % 2 = 0 →
    (∀ i b, ss[i]? = some b → i % 2 = 1 → b &&& 0xF0#8 = 0#8) →
    (storeToWire ss).bind unwireToStore = some ss) ∧
  (∀ bs : List Byte, bs.length % 2 = 0 →
    (unwireToStore bs).bind storeToWire = some (bs.map (· &&& 0o77#8))) ∧
  (∀ ss : List Byte, ss.length % 2 = 0 →
    (storeToWire ss).bind unwireToStore =
      some (ss.mapIdx fun i b => if i % 2 = 1 then b &&& 0x0F#8 else b)) ∧
  (∀ w : Word12, decodeWireWords (encodeControlWord w) = [w]) ∧
  (∀ w : Word12, storeDecodeWords (storeEncode w) = [w])

/-- R145 and R146: pair `i` of the output is the other encoding of the word that pair `i` of the
input decodes to, and an odd-length list is refused. -/
def Obligations.BulkConversionIsWordByWord : Prop :=
  (∀ bs : List Byte, bs.length % 2 = 0 →
    unwireToStore bs = some ((decodeWireWords bs).flatMap storeEncode)) ∧
  (∀ ss : List Byte, ss.length % 2 = 0 →
    storeToWire ss = some ((storeDecodeWords ss).flatMap encodeControlWord)) ∧
  (∀ bs : List Byte, bs.length % 2 = 1 → unwireToStore bs = none ∧ storeToWire bs = none)

/-- R105: a control word as its two six-bit halves, the low half first, with bits 7:6 of both
bytes zero; R107: a store pair, the low byte first, with bits 7:4 of the second byte zero. -/
def Obligations.WordLayouts : Prop :=
  ∀ w : Word12,
    (∃ b0 b1 : Byte, encodeControlWord w = [b0, b1] ∧
      b0.toNat = w.toNat % 64 ∧ b1.toNat = w.toNat / 64) ∧
    (∃ s0 s1 : Byte, storeEncode w = [s0, s1] ∧
      s0.toNat = w.toNat % 256 ∧ s1.toNat = w.toNat / 256)

/-- R149: the two's complement of a count modulo 4096, and that it cancels the count. -/
def Obligations.NegativeWordCount : Prop :=
  ∀ n : Nat, (neg12 n).toNat = (4096 - n % 4096) % 4096 ∧ neg12 n + BitVec.ofNat 12 n = 0#12

/-! ### Decoding (30_encoding.md) -/

/-- R102, on bytes written out from the opcode map: both ends of every range of the map. -/
def Obligations.OpcodeMapSamples : Prop :=
  decodeCommand 0b00000000#8 = .helpboot ∧ decodeCommand 0b01000000#8 = .bootsect ∧
  decodeCommand 0b01000001#8 = .xferA ∧ decodeCommand 0b01001000#8 = .xferH ∧
  decodeCommand 0b01010001#8 = .quit ∧ decodeCommand 0b00000001#8 = .ignored 0x01#8 ∧
  decodeCommand 0b00111111#8 = .ignored 0x3F#8 ∧ decodeCommand 0b01001001#8 = .ignored 0x49#8 ∧
  decodeCommand 0b01010000#8 = .ignored 0x50#8 ∧ decodeCommand 0b01010010#8 = .ignored 0x52#8 ∧
  decodeCommand 0b11000001#8 = .ignored 0xC1#8 ∧ decodeCommand 0b11111111#8 = .ignored 0xFF#8

/-- R101, R205, R206: the unit and the side of the eight transfer bytes, in the command byte and in
the request the resolver builds for it. -/
def Obligations.TransferByteFields : Prop :=
  ∀ b : Byte, 0x41#8 ≤ b → b ≤ 0x48#8 →
    (decodeCommand b).isTransfer = true ∧ encodeCommand (decodeCommand b) = b ∧
    (unitOf b).index = (b.toNat - 0x41) / 2 ∧
    (sideOf b).toNat = (if b.toNat % 2 = 0 then 1 else 0) ∧
    ∀ (cfg : Cfg) (units : PerUnit UnitConfig) (w : ParamRegs),
      (resolve cfg units b w).unit.index = (b.toNat - 0x41) / 2 ∧
      (resolve cfg units b w).side.toNat = if b.toNat % 2 = 0 then 1 else 0

/-- A whole transfer command, byte and parameter block, decodes to what was encoded, with every
operand at every value of its field, and leaves the bytes after it (R110 to R113, R128). -/
def Obligations.TransferDecodeEncode : Prop :=
  ∀ (i : Instr) (mode : Mode) (p : ParamBlock) (more : List Byte),
    i.isTransfer = true → p.fits mode = true →
    decodeTransfer mode (encodeTransfer i p ++ more) = .ok (i, p, more)

/-- R126 for what a client sends: bits 7:6 of a wire byte, bits 2:0 of a PAGE function word, bits
10:3 of a FIXED function word and bits 11:7 of the second FIXED word have no effect on what the
parameter block decodes to; nor have bits 7:4 of the second byte of a store pair. -/
def Obligations.IgnoredBitsHaveNoEffect : Prop :=
  (∀ b0 b1 : Byte, decodeWireWord b0 b1 = decodeWireWord (b0 &&& 0o77#8) (b1 &&& 0o77#8)) ∧
  (∀ w0 w1 w2 w3 : Word12, decodeParams .page w0 w1 w2 w3 =
    decodeParams .page (w0 &&& 0o7770#12) w1 w2 0#12) ∧
  (∀ w0 w1 w2 w3 : Word12, decodeParams .fixed w0 w1 w2 w3 =
    decodeParams .fixed (w0 &&& 0o4007#12) (w1 &&& 0o177#12) w2 w3) ∧
  (∀ s0 s1 : Byte, storeDecode s0 s1 = storeDecode s0 (s1 &&& 0x0F#8))

/-! ### Taking a command (41_dispatcher.md) -/

/-- A STEP RUNS THE DECODED INSTRUCTION: in `IDLE`, with no cancel request and a byte that the
environment lets through, the step takes exactly that byte into `CMD` and runs `exec` of the
instruction the queue decodes to; and in a procedure that waits it runs `exec` of the instruction
`CMD` holds, on the state as it is. -/
def Obligations.StepRunsDecodedCommand : Prop :=
  (∀ (s : State) (i : Instr) (rest : List Byte),
    s.phase = .idle → s.advance.cancel = false → s.failNow = none →
    decode s.advance.rxq = .ok (i, rest) →
    i.wf = true ∧
    step s = exec i
      (((s.advance.withRxq rest).withCmd (encodeCommand i)).record (.recv [encodeCommand i]))) ∧
  (∀ (s : State) (p : XferPhase), s.phase = .xfer p → step s = exec (decodeCommand s.cmd) s)

/-- `withFetchWord` places an instruction that the next step takes and runs: the model's own way
in for a program (notes/assumptions 6). -/
def Obligations.PlacedInstructionRuns : Prop :=
  ∀ (s : State) (w : Nat), ∃ (i : Instr) (rest : List Byte),
    decodeTableWord 8 w = some i ∧ (s.withFetchWord 8 w).rxq = encodeCommand i :: rest ∧
    step (s.withFetchWord 8 w) =
      exec i ((((s.withFetchWord 8 w).withRxq rest).withCmd (encodeCommand i)).record
        (.recv [encodeCommand i]))

/-- R170: with no cancel request and no byte queued the engine waits: only the environment moves.
That the wait is a step is the model's choice (notes/assumptions 11). -/
def Obligations.IdleEngineWaits : Prop :=
  ∀ s : State, s.phase = .idle → s.advance.cancel = false → s.advance.rxq = [] →
    step s = .next s.advance

/-- R171, R320: a cancel request set in `IDLE` is taken before any queued byte: every open store
is flushed and closed in order, nothing is sent, nothing is taken from the queue, and the engine
halts. -/
def Obligations.CancelIsTakenFirst : Prop :=
  ∀ s : State, s.phase = .idle → s.advance.cancel = true → NoFailures s →
    ∃ t, step s = .next t ∧ t.phase = .halted .cancel ∧
      (∀ u, t.isOpen.get u = false) ∧
      t.trace = s.trace ++ closeEvents s.isOpen ++ [.halt .cancel] ∧
      s.rxq <+: t.rxq ∧ t.tx = s.tx ∧ t.stores = s.stores ∧ t.cmd = s.cmd ∧ t.cancel = true ∧
      t.cfg = s.cfg ∧ t.units = s.units ∧ t.w = s.w ∧ t.tr = s.tr ∧ t.buf = s.buf ∧
      t.desync = s.desync ∧ t.draws = s.draws

/-- R185: an ignored byte changes nothing but the phase, which is `IDLE` again. -/
def Obligations.IgnoredCompletes : Prop :=
  ∀ (b : Byte) (s : State), exec (.ignored b) s = .next { s with phase := .idle }

/-- R125, R196: in `IDLE`, a byte with no row of its own is taken, alone, and dropped: nothing is
sent, no other byte is taken, and the engine is idle. -/
def Obligations.UnnamedByteIsDropped : Prop :=
  ∀ (s : State) (b : Byte) (rest : List Byte),
    s.phase = .idle → s.advance.cancel = false → s.failNow = none →
    s.advance.rxq = b :: rest → isNamedCommand b = false →
    step s = .next (((s.advance.withRxq rest).withCmd b).record (.recv [b]))

/-- R184: `QUIT` flushes and closes every open store, units 0 to 3 in order, powers off if the
configuration asks for it, and halts; it sends nothing and takes no further byte. -/
def Obligations.QuitCompletes : Prop :=
  ∀ s : State, NoFailures s →
    ∃ t, exec .quit s = .next t ∧ t.phase = .halted .quit ∧
      (∀ u, t.isOpen.get u = false) ∧
      t.trace = s.trace ++ closeEvents s.isOpen ++
        (if s.cfg.powerOff then [.powerOff] else []) ++ [.halt .quit] ∧
      s.rxq <+: t.rxq ∧ t.tx = s.tx ∧ t.stores = s.stores ∧ t.cmd = s.cmd ∧
      t.cfg = s.cfg ∧ t.units = s.units ∧ t.w = s.w ∧ t.tr = s.tr ∧ t.buf = s.buf ∧
      t.desync = s.desync ∧ t.draws = s.draws

/-- R312: a fault in `QUIT`, or in the cancel shutdown that a cancel request set in `IDLE` enters,
ends in `FATAL` at one open unit: the units before it are closed, it and the later ones keep their
open state, and neither the power-off nor a halt happens. -/
def Obligations.ShutdownFaultLeavesLaterUnitsOpen : Prop :=
  ∀ (s t : State) (info : FatalInfo),
    (exec .quit s = .next t ∨
      (s.phase = .idle ∧ s.advance.cancel = true ∧ step s = .next t)) →
    t.phase = .fatal info →
    ∃ u, info.unit = some u ∧
      (info.primitive = .storeFlush ∨ info.primitive = .storeClose) ∧
      s.isOpen.get u = true ∧
      (∀ v, v.index < u.index → t.isOpen.get v = false) ∧
      (∀ v, u.index ≤ v.index → t.isOpen.get v = s.isOpen.get v) ∧
      t.stores = s.stores ∧ t.tx = s.tx ∧
      ∃ events, t.trace = s.trace ++ events ++ [.fatal info] ∧
        (∀ v, u.index < v.index → Event.storeFlush v ∉ events) ∧
        Event.powerOff ∉ events ∧ ∀ reason, Event.halt reason ∉ events

/-- R92, R280, R311: whatever the environment does, a command that is no transfer writes no store,
takes no byte, and leaves the registers of a transfer alone; and no command but `QUIT` opens or
closes a store, or writes `CMD`, the configuration or the unit table. -/
def Obligations.CommandFrame : Prop :=
  ∀ (i : Instr) (s t : State), exec i s = .next t →
    t.cmd = s.cmd ∧ t.cfg = s.cfg ∧ t.units = s.units ∧
    (i ≠ .quit → t.isOpen = s.isOpen) ∧
    (i.isTransfer = false →
      t.stores = s.stores ∧ t.w = s.w ∧ t.tr = s.tr ∧ t.desync = s.desync ∧ s.rxq <+: t.rxq ∧
      (i ≠ .helpboot → i ≠ .bootsect →
        t.tx = s.tx ∧ t.buf = s.buf ∧ t.draws = s.draws) ∧
      ∃ events, t.trace = s.trace ++ events ∧
        ∀ u off bs, Event.storeWrite u off bs ∉ events)

/-! ### Boot commands (44_bootstrap.md) -/

/-- R270, R271: `BOOTSECT` reads the first 256 bytes of unit 0, sends them in wire layout and then
the byte 0200; it looks at no protection flag, sends no acknowledgment and runs no drain check. That
`draws` goes on by 256, also where the store is full and gives no draw, is the model's counter
(notes/assumptions 14), no rule of the spec. -/
def Obligations.BootsectCompletes : Prop :=
  ∀ s : State, s.isOpen.get .u0 = true → NoFailures s →
    ∃ (page wire : List Byte) (t : State),
      page = (s.stores.get .u0).readBytes 0 256 s.draws ∧ storeToWire page = some wire ∧
      wire.length = 256 ∧ exec .bootsect s = .next t ∧ t.phase = .idle ∧
      t.tx = s.tx ++ wire ++ [0x80#8] ∧ t.buf = page ∧ t.draws = s.draws + 256 ∧
      t.trace = s.trace ++ [.storeRead .u0 0 256 page, .send wire, .send [0x80#8]] ∧
      t.rxq = s.rxq ++ s.arrived 3 ∧
      t.stores = s.stores ∧ t.isOpen = s.isOpen ∧ t.cmd = s.cmd ∧ t.w = s.w ∧ t.tr = s.tr ∧
      t.desync = s.desync ∧ t.cfg = s.cfg ∧ t.units = s.units

/-- R272, R276 to R279: with no forbidden HELP word, `HELPBOOT` sends its three chunks in order,
the block-0 read standing between the second and the third, takes nothing from the client and
writes no store. That `draws` goes on by 512, also where the store is full and gives no draw, is the
model's counter (notes/assumptions 14), no rule of the spec. -/
def Obligations.HelpbootCompletes : Prop :=
  ∀ s : State, (∀ w ∈ s.cfg.helpTable, w &&& s.cfg.helpForbiddenMask = 0#12) →
    s.isOpen.get .u0 = true → NoFailures s →
    ∃ (block chunk1 chunk2 chunk3 : List Byte) (t : State),
      block = (s.stores.get .u0).readBytes 0 512 s.draws ∧
      chunk1 = helpChunk s.cfg s.cfg.helpTable ∧
      chunk2 = s.cfg.stage2Table.flatMap encodeControlWord ∧
      chunk3 = (patchWords s.cfg ((storeDecodeWords block).take s.cfg.bootPrefixLen)).flatMap
        encodeControlWord ∧
      exec .helpboot s = .next t ∧ t.phase = .idle ∧
      t.tx = s.tx ++ chunk1 ++ chunk2 ++ chunk3 ∧
      t.trace = s.trace ++
        [.send chunk1, .send chunk2, .storeRead .u0 0 512 block, .send chunk3] ∧
      t.rxq = s.rxq ++ s.arrived 4 ∧ t.draws = s.draws + 512 ∧
      t.stores = s.stores ∧ t.isOpen = s.isOpen ∧ t.cmd = s.cmd ∧ t.w = s.w ∧ t.tr = s.tr ∧
      t.desync = s.desync ∧ t.cfg = s.cfg ∧ t.units = s.units

/-- R274: a forbidden word anywhere in the HELP table ends the command with nothing sent, nothing
read and no fault. -/
def Obligations.ForbiddenHelpWordAborts : Prop :=
  ∀ s : State, (∃ w ∈ s.cfg.helpTable, w &&& s.cfg.helpForbiddenMask ≠ 0#12) →
    exec .helpboot s = .next { s with phase := .idle }

/-- R273: `help_byte` depends on bits 6:0 of the word and on the link alone, and is injective on
them. -/
def Obligations.HelpByteInjective : Prop :=
  ∀ (cfg : Cfg) (w v : Word12) (l m : Bool), cfg.helpBytesInjective →
    (helpByte cfg w l = helpByte cfg v m ↔ w &&& 0o177#12 = v &&& 0o177#12 ∧ l = m)

/-- R273, R275: chunk 1 has one byte for each word of the table, its link being bit 9 of the next
word, and false for the last. -/
def Obligations.HelpChunkLinksToNextWord : Prop :=
  ∀ (cfg : Cfg) (table : List Word12),
    (helpChunk cfg table).length = table.length ∧
    ∀ (i : Nat) (w : Word12), table[i]? = some w →
      (helpChunk cfg table)[i]? = some (helpByte cfg w
        (match table[i + 1]? with
          | some next => next.getLsbD 9
          | none => false))

/-- R276, R277, R278: chunk 3 is `BOOT_PREFIX_LEN` words, the store's own but for the three
patched places. -/
def Obligations.BootPrefixIsPatchedInPlace : Prop :=
  ∀ (cfg : Cfg) (block : List Byte), cfg.wf → block.length = 512 →
    (bootPrefixBytes cfg block).length = 2 * cfg.bootPrefixLen ∧
    (decodeWireWords (bootPrefixBytes cfg block)).length = cfg.bootPrefixLen ∧
    (decodeWireWords (bootPrefixBytes cfg block))[cfg.patchAddrOff]? = some cfg.patchAddrVal ∧
    (decodeWireWords (bootPrefixBytes cfg block))[cfg.patchWcOff]? = some cfg.patchWcVal ∧
    (decodeWireWords (bootPrefixBytes cfg block))[cfg.patchCdfOff]? = some 0o6211#12 ∧
    ∀ j, j < cfg.bootPrefixLen → j ≠ cfg.patchAddrOff → j ≠ cfg.patchWcOff →
      j ≠ cfg.patchCdfOff →
      (decodeWireWords (bootPrefixBytes cfg block))[j]? = (storeDecodeWords block)[j]?

/-! ### The resolver (42_resolver.md) -/

/-- R205, R206, R211, R212, R213, R215, R224, R225: the request of a PAGE-mode transfer, field by
field, as numbers. That the page count is bits 10:6 is the spec's resolution of its conflict C1
(notes/assumptions 19). -/
def Obligations.PageRequestFields : Prop :=
  ∀ (cfg : Cfg) (units : PerUnit UnitConfig) (b : Byte) (w : ParamRegs) (tr : TransferRequest),
    cfg.mode = .page → tr = resolve cfg units b w →
    tr.unit = unitOf b ∧ tr.side = sideOf b ∧ (tr.dir = .write ↔ 2048 ≤ w.w0.toNat) ∧
    tr.pageCount = (if w.w0.toNat / 64 % 32 = 0 then 32 else w.w0.toNat / 64 % 32) ∧
    tr.field.toNat = w.w0.toNat / 8 % 8 ∧ tr.bufferAddress = w.w1 ∧
    tr.startBlock = w.w2.toNat ∧ tr.subUnit = 0#3 ∧
    tr.cdf.toNat = 0o6201 + 8 * tr.field.toNat ∧
    tr.totalWords = tr.pageCount * 128 ∧ tr.totalBytes = 2 * tr.totalWords ∧
    (tr.halfBlock = true ↔ tr.dir = .write ∧ tr.pageCount % 2 = 1) ∧
    tr.wc.toNat = (4096 - tr.totalWords % 4096) % 4096

/-- R205, R206, R211, R212, R214, R215, R224, R225: the request of a FIXED-mode transfer, field by
field. That the field is bits 6:4 of the second word, that the count is not reinterpreted and that
the CDF word is PAGE mode's are the spec's own decisions D10, D11 and D38 (notes/assumptions
19). -/
def Obligations.FixedRequestFields : Prop :=
  ∀ (cfg : Cfg) (units : PerUnit UnitConfig) (b : Byte) (w : ParamRegs) (tr : TransferRequest),
    cfg.mode = .fixed → tr = resolve cfg units b w →
    tr.unit = unitOf b ∧ tr.side = sideOf b ∧ (tr.dir = .write ↔ 2048 ≤ w.w0.toNat) ∧
    tr.subUnit.toNat = w.w0.toNat % 8 ∧ tr.bufferAddress.toNat = w.w1.toNat % 16 * 256 ∧
    tr.field.toNat = w.w1.toNat / 16 % 8 ∧ tr.startBlock = w.w2.toNat ∧
    tr.pageCount = 2 * w.w3.toNat ∧
    tr.cdf.toNat = 0o6201 + 8 * tr.field.toNat ∧
    tr.totalWords = tr.pageCount * 128 ∧ tr.totalBytes = 2 * tr.totalWords ∧
    tr.halfBlock = false ∧ tr.wc.toNat = (4096 - tr.totalWords % 4096) % 4096

/-- R216, R79: the block offset in each mode, and the byte offset it gives. -/
def Obligations.BlockOffsetFormula : Prop :=
  ∀ (cfg : Cfg) (units : PerUnit UnitConfig) (b : Byte) (w : ParamRegs) (tr : TransferRequest),
    tr = resolve cfg units b w →
    (cfg.mode = .page → tr.blockOffset = tr.side.toNat * cfg.numberOfBlocks) ∧
    (cfg.mode = .fixed → cfg.fixedSideOffset = true →
      tr.blockOffset = tr.side.toNat * cfg.numberOfBlocks + tr.subUnit.toNat * 512) ∧
    (cfg.mode = .fixed → cfg.fixedSideOffset = false →
      tr.blockOffset = tr.subUnit.toNat * 512) ∧
    transferOffset tr = (tr.startBlock + tr.blockOffset) * 512

/-- R217, R218, R220, R221, R222: each check as the spec states it, the flag they leave, and the
acknowledgment word, which carries the bit of every failing check. -/
def Obligations.ChecksSetOkAndAck : Prop :=
  ∀ (cfg : Cfg) (units : PerUnit UnitConfig) (b : Byte) (w : ParamRegs) (tr : TransferRequest)
    (u : UnitConfig) (protect bound resident : Word12),
    tr = resolve cfg units b w → u = units.get tr.unit →
    protect = (if (tr.dir = .write ∧ u.inUse = true ∧ u.writeProtect = true) ∨
        (tr.dir = .read ∧ u.inUse = true ∧ u.readProtect = true) then cfg.bProtect else 0#12) →
    bound = (if tr.startBlock + (tr.pageCount + 1) / 2 > cfg.numberOfBlocks
      then cfg.bBound else 0#12) →
    resident = (if cfg.mode = .page ∧ tr.field = 0#3 ∧
        tr.bufferAddress.toNat + tr.totalWords > 0o7600 then cfg.bResident else 0#12) →
    (tr.ok = true ↔ u.inUse = true ∧
      ¬(tr.dir = .write ∧ u.writeProtect = true) ∧ ¬(tr.dir = .read ∧ u.readProtect = true) ∧
      tr.startBlock + (tr.pageCount + 1) / 2 ≤ cfg.numberOfBlocks ∧
      ¬(cfg.mode = .page ∧ tr.field = 0#3 ∧
        tr.bufferAddress.toNat + tr.totalWords > 0o7600)) ∧
    (tr.ok = true → tr.ack = match tr.dir with
      | .read => 0o4000#12
      | .write => cfg.ackWritePending) ∧
    (tr.ok = false → tr.ack = 0o2000#12 ||| protect ||| bound ||| resident)

/-- R228: on a unit in use, unprotected in the transfer's direction, with a buffer the resident
check lets through, the resolver accepts exactly the transfers that meet the boundary check, and
rejects the others with the boundary bit. The check does not count `block_offset`: in FIXED mode an
accepted transfer may lie past the side (R83, R357). -/
def Obligations.AcceptsExactlyUpToTheBound : Prop :=
  ∀ (cfg : Cfg) (units : PerUnit UnitConfig) (b : Byte) (w : ParamRegs) (tr : TransferRequest),
    tr = resolve cfg units b w → (units.get tr.unit).inUse = true →
    (tr.dir = .write → (units.get tr.unit).writeProtect = false) →
    (tr.dir = .read → (units.get tr.unit).readProtect = false) →
    (cfg.mode = .page → tr.field ≠ 0#3 ∨ tr.bufferAddress.toNat + tr.totalWords ≤ 0o7600) →
    (tr.ok = true ↔ tr.startBlock + ceil2 tr.pageCount ≤ cfg.numberOfBlocks) ∧
    (cfg.numberOfBlocks < tr.startBlock + ceil2 tr.pageCount →
      tr.ack = 0o2000#12 ||| cfg.bBound)

/-- R229: in PAGE mode a page field of 0 resolves as a request for 32 pages. -/
def Obligations.ZeroPagesMeansThirtyTwo : Prop :=
  ∀ (cfg : Cfg) (units : PerUnit UnitConfig) (b : Byte) (w : ParamRegs),
    cfg.mode = .page → w.w0 &&& 0o3700#12 = 0#12 →
    resolve cfg units b w =
      resolveBlock cfg units b
        (.page (decodeDirection w.w0) 32 (w.w0.extractLsb' 3 3) w.w1 w.w2)

/-! ### Transfers (41_dispatcher.md R176, 43_executors.md) -/

/-- R230: whatever its parameters, a transfer command makes the engine take exactly the parameter
block and send exactly six bytes, the setup words and the acknowledgment, before anything else. -/
def Obligations.TransferFraming : Prop :=
  ∀ (i : Instr) (s : State), i.isTransfer = true → s.AtParams → NoFailures s →
    s.paramLength ≤ (s.rxq ++ s.arrived 1).length →
    (∀ u, s.isOpen.get u = (s.units.get u).inUse) →
    ∃ (t : State) (later : List Event), exec i s = .next t ∧
      t.trace = s.trace ++ [.recv s.paramBlock, .send (setupBytes (s.request i)),
        .send (encodeControlWord (s.request i).ack)] ++ later ∧
      s.paramBlock.length = (match s.cfg.mode with
        | .page => 6
        | .fixed => 8) ∧
      (setupBytes (s.request i)).length = 4 ∧
      (encodeControlWord (s.request i).ack).length = 2

/-- R302, R226: a transfer that fails a check ends in `IDLE` after the parameter block, the setup
words and the negative acknowledgment; nothing else moves. -/
def Obligations.RejectedTransferCompletes : Prop :=
  ∀ (i : Instr) (s : State), i.isTransfer = true → s.AtParams → NoFailures s →
    s.paramLength ≤ (s.rxq ++ s.arrived 1).length → (s.request i).ok = false →
    ∃ t, exec i s = .next t ∧ t.phase = .idle ∧
      t.tx = s.tx ++ setupBytes (s.request i) ++ encodeControlWord (s.request i).ack ∧
      t.rxq = (s.rxq ++ s.arrived 3).drop s.paramLength ∧
      t.trace = s.trace ++ [.recv s.paramBlock, .send (setupBytes (s.request i)),
        .send (encodeControlWord (s.request i).ack)] ∧
      t.w = s.paramRegs ∧ t.tr = s.request i ∧
      t.stores = s.stores ∧ t.isOpen = s.isOpen ∧ t.buf = s.buf ∧ t.desync = s.desync ∧
      t.cmd = s.cmd ∧ t.draws = s.draws ∧ t.cfg = s.cfg ∧ t.units = s.units

/-- R240 to R245: an accepted read sends the store's bytes in wire layout, then takes and drops
every byte queued, and acknowledges with `DONE`, or with the desync NACK when it took any. That
`draws` goes on by the bytes read, also where the store is full and gives no draw, is the model's
counter (notes/assumptions 14), no rule of the spec. -/
def Obligations.ReadTransferCompletes : Prop :=
  ∀ (i : Instr) (s : State) (tr : TransferRequest),
    i.isTransfer = true → s.AtParams → NoFailures s →
    s.paramLength ≤ (s.rxq ++ s.arrived 1).length →
    tr = s.request i → tr.ok = true → tr.dir = .read → s.isOpen.get tr.unit = true →
    ∃ (data wire extra final : List Byte) (t : State),
      data = (s.stores.get tr.unit).readBytes (transferOffset tr) tr.totalBytes s.draws ∧
      storeToWire data = some wire ∧ wire.length = tr.totalBytes ∧
      extra = (s.rxq ++ s.arrived 6).drop s.paramLength ∧
      final = encodeControlWord
        (if extra = [] then 0#12 else 0o2000#12 ||| s.cfg.bDesync) ∧
      exec i s = .next t ∧ t.phase = .idle ∧
      t.tx = s.tx ++ setupBytes tr ++ encodeControlWord 0o4000#12 ++ wire ++ final ∧
      t.trace = s.trace ++ [.recv s.paramBlock, .send (setupBytes tr),
        .send (encodeControlWord 0o4000#12),
        .storeRead tr.unit (transferOffset tr) tr.totalBytes data, .send wire,
        .drain extra, .send final] ∧
      t.rxq = ((s.env.drop 6).take 1).flatMap EnvMove.arrive ∧
      t.desync = !extra.isEmpty ∧ t.buf = data ∧ t.draws = s.draws + tr.totalBytes ∧
      t.w = s.paramRegs ∧ t.tr = tr ∧
      t.stores = s.stores ∧ t.isOpen = s.isOpen ∧ t.cmd = s.cmd ∧
      t.cfg = s.cfg ∧ t.units = s.units

/-- R250 to R257: an accepted write whose data is queued and which nothing follows acknowledges
with `DONE`, then writes the padded data in store layout and flushes: only the bytes of the
transfer's own blocks may change. -/
def Obligations.WriteTransferCompletes : Prop :=
  ∀ (i : Instr) (s : State) (tr : TransferRequest),
    i.isTransfer = true → s.AtParams → NoFailures s →
    s.paramLength ≤ (s.rxq ++ s.arrived 1).length →
    tr = s.request i → tr.ok = true → tr.dir = .write → s.isOpen.get tr.unit = true →
    s.paramLength + tr.totalBytes ≤ (s.rxq ++ s.arrived 4).length →
    (s.rxq ++ s.arrived 5).length = s.paramLength + tr.totalBytes →
    ∃ (data bytes : List Byte) (t : State),
      data = ((s.rxq ++ s.arrived 4).drop s.paramLength).take tr.totalBytes ∧
      unwireToStore (paddedData tr data) = some bytes ∧
      bytes.length = 512 * ceil2 tr.pageCount ∧
      exec i s = .next t ∧ t.phase = .idle ∧
      t.tx = s.tx ++ setupBytes tr ++ encodeControlWord s.cfg.ackWritePending ++ [0#8, 0#8] ∧
      t.trace = s.trace ++ [.recv s.paramBlock, .send (setupBytes tr),
        .send (encodeControlWord s.cfg.ackWritePending), .recv data, .drain [],
        .send [0#8, 0#8], .storeWrite tr.unit (transferOffset tr) bytes,
        .storeFlush tr.unit] ∧
      t.stores = s.stores.set tr.unit
        ((s.stores.get tr.unit).writeBytes (transferOffset tr) bytes) ∧
      t.rxq = ((s.env.drop 5).take 3).flatMap EnvMove.arrive ∧
      t.desync = false ∧ t.buf = paddedData tr data ∧ t.draws = s.draws ∧
      t.w = s.paramRegs ∧
      t.tr = tr.padded ∧
      t.isOpen = s.isOpen ∧ t.cmd = s.cmd ∧ t.cfg = s.cfg ∧ t.units = s.units

/-- R245, R254, R255: a write that any byte follows in the queue takes and drops all of them,
acknowledges with the desync NACK and commits nothing. -/
def Obligations.DesyncedWriteCommitsNothing : Prop :=
  ∀ (i : Instr) (s : State) (tr : TransferRequest),
    i.isTransfer = true → s.AtParams → NoFailures s →
    s.paramLength ≤ (s.rxq ++ s.arrived 1).length →
    tr = s.request i → tr.ok = true → tr.dir = .write →
    s.paramLength + tr.totalBytes ≤ (s.rxq ++ s.arrived 4).length →
    s.paramLength + tr.totalBytes < (s.rxq ++ s.arrived 5).length →
    ∃ (final : List Byte) (t : State),
      final = encodeControlWord (0o2000#12 ||| s.cfg.bDesync) ∧
      exec i s = .next t ∧ t.phase = .idle ∧ t.desync = true ∧
      t.tx = s.tx ++ setupBytes tr ++ encodeControlWord s.cfg.ackWritePending ++ final ∧
      t.trace = s.trace ++ [.recv s.paramBlock, .send (setupBytes tr),
        .send (encodeControlWord s.cfg.ackWritePending),
        .recv (((s.rxq ++ s.arrived 4).drop s.paramLength).take tr.totalBytes),
        .drain ((s.rxq ++ s.arrived 5).drop (s.paramLength + tr.totalBytes)), .send final] ∧
      t.rxq = ((s.env.drop 5).take 1).flatMap EnvMove.arrive ∧
      t.stores = s.stores ∧ t.isOpen = s.isOpen ∧ t.cmd = s.cmd ∧ t.draws = s.draws ∧
      t.w = s.paramRegs ∧ t.tr = tr.padded ∧ t.cfg = s.cfg ∧ t.units = s.units

/-- R227, R220: whatever the environment does, a transfer that fails a check performs no store
primitive and changes no store, from its command byte or from its wait for parameters. (A sound
wait for write data holds an accepted request only.) -/
def Obligations.RejectedTransferTouchesNoStore : Prop :=
  ∀ (i : Instr) (s t : State) (tr : TransferRequest), i.isTransfer = true →
    s.Serves i tr → tr.ok = false → exec i s = .next t →
    t.stores = s.stores ∧
      ∃ events, t.trace = s.trace ++ events ∧ ∀ e ∈ events, e.isStoreEvent = false

/-- Whatever the environment does, and whether the transfer is begun or taken up from a wait for
parameters or for write data, it changes no store but its own unit's, only when it is an accepted
write, and there only the bytes of its own blocks, and the gap before them that a growing store
leaves, which reads as zero (R79, R82, R257). -/
def Obligations.TransferStoreFrame : Prop :=
  ∀ (i : Instr) (s t : State) (tr : TransferRequest) (u : UnitNo) (a : Nat),
    i.isTransfer = true → s.Serves i tr → (∀ v, (s.stores.get v).wf) →
    exec i s = .next t →
    ¬(u = tr.unit ∧ tr.dir = .write ∧ tr.ok = true ∧
      transferOffset tr ≤ a ∧ a < transferOffset tr + 512 * ceil2 tr.pageCount) →
    (t.stores.get u).byteAt a = (s.stores.get u).byteAt a ∨
      (u = tr.unit ∧ tr.dir = .write ∧ tr.ok = true ∧ a < transferOffset tr ∧
        (s.stores.get u).byteAt a = none ∧ (t.stores.get u).byteAt a = some 0#8)

/-- R201, R350: with fewer bytes queued than the parameter block has, a transfer waits in
`PARAMS`, having taken and sent nothing. That the wait is a step is the model's choice
(notes/assumptions 11). -/
def Obligations.TransferWaitsForParameters : Prop :=
  ∀ (i : Instr) (s : State), i.isTransfer = true → s.AtParams → s.failNow = none →
    (s.rxq ++ s.arrived 1).length < s.paramLength →
    exec i s = .next { s.advance with phase := .xfer .params }

/-- R250, R251: an accepted write whose data is not all queued acknowledges with
`ACK_WRITE_PENDING` and waits in `WR_RECV`, having taken its parameter block and no data. That the
wait is a step is the model's choice (notes/assumptions 11). -/
def Obligations.AcceptedWriteAwaitsData : Prop :=
  ∀ (i : Instr) (s : State) (tr : TransferRequest),
    i.isTransfer = true → s.AtParams → NoFailures s →
    s.paramLength ≤ (s.rxq ++ s.arrived 1).length →
    tr = s.request i → tr.ok = true → tr.dir = .write →
    (s.rxq ++ s.arrived 4).length < s.paramLength + tr.totalBytes →
    ∃ t, exec i s = .next t ∧ t.phase = .xfer .wrRecv ∧
      t.tx = s.tx ++ setupBytes tr ++ encodeControlWord s.cfg.ackWritePending ∧
      t.trace = s.trace ++ [.recv s.paramBlock, .send (setupBytes tr),
        .send (encodeControlWord s.cfg.ackWritePending)] ∧
      t.rxq = (s.rxq ++ s.arrived 4).drop s.paramLength ∧ t.env = s.env.drop 4 ∧
      t.desync = false ∧ t.w = s.paramRegs ∧ t.tr = tr ∧
      t.stores = s.stores ∧ t.isOpen = s.isOpen ∧ t.buf = s.buf ∧ t.cmd = s.cmd ∧
      t.draws = s.draws ∧ t.cfg = s.cfg ∧ t.units = s.units

/-- R251, R350: in `WR_RECV` with fewer bytes queued than the transfer has, only the environment
moves. That the wait is a step is the model's choice (notes/assumptions 11). -/
def Obligations.WriteWaitsForData : Prop :=
  ∀ (i : Instr) (s : State), i.isTransfer = true → s.phase = .xfer .wrRecv → s.failNow = none →
    (s.rxq ++ s.arrived 1).length < s.tr.totalBytes → exec i s = .next s.advance

/-- R250 to R257, from a wait in `WR_RECV`: once exactly the data is queued the write acknowledges
with `DONE`, writes the padded data in store layout and flushes. -/
def Obligations.WaitingWriteCompletes : Prop :=
  ∀ (i : Instr) (s : State),
    i.isTransfer = true → s.phase = .xfer .wrRecv → Sound s → NoFailures s →
    s.tr.totalBytes ≤ (s.rxq ++ s.arrived 1).length →
    (s.rxq ++ s.arrived 2).length = s.tr.totalBytes →
    ∃ (data bytes : List Byte) (t : State),
      data = (s.rxq ++ s.arrived 1).take s.tr.totalBytes ∧
      unwireToStore (paddedData s.tr data) = some bytes ∧
      bytes.length = 512 * ceil2 s.tr.pageCount ∧
      exec i s = .next t ∧ t.phase = .idle ∧ t.tx = s.tx ++ [0#8, 0#8] ∧
      t.trace = s.trace ++ [.recv data, .drain [], .send [0#8, 0#8],
        .storeWrite s.tr.unit (transferOffset s.tr) bytes, .storeFlush s.tr.unit] ∧
      t.stores = s.stores.set s.tr.unit
        ((s.stores.get s.tr.unit).writeBytes (transferOffset s.tr) bytes) ∧
      t.rxq = ((s.env.drop 2).take 3).flatMap EnvMove.arrive ∧
      t.desync = false ∧ t.buf = paddedData s.tr data ∧ t.tr = s.tr.padded ∧
      t.w = s.w ∧ t.draws = s.draws ∧ t.isOpen = s.isOpen ∧ t.cmd = s.cmd ∧
      t.cfg = s.cfg ∧ t.units = s.units

/-- R245, R254, R255, from a wait in `WR_RECV`: when a byte follows the data the write
acknowledges with the desync NACK and commits nothing. -/
def Obligations.WaitingDesyncedWriteCommitsNothing : Prop :=
  ∀ (i : Instr) (s : State),
    i.isTransfer = true → s.phase = .xfer .wrRecv → NoFailures s →
    s.tr.totalBytes ≤ (s.rxq ++ s.arrived 1).length →
    s.tr.totalBytes < (s.rxq ++ s.arrived 2).length →
    ∃ (final : List Byte) (t : State),
      final = encodeControlWord (0o2000#12 ||| s.cfg.bDesync) ∧
      exec i s = .next t ∧ t.phase = .idle ∧ t.desync = true ∧ t.tx = s.tx ++ final ∧
      t.trace = s.trace ++ [.recv ((s.rxq ++ s.arrived 1).take s.tr.totalBytes),
        .drain ((s.rxq ++ s.arrived 2).drop s.tr.totalBytes), .send final] ∧
      t.rxq = ((s.env.drop 2).take 1).flatMap EnvMove.arrive ∧
      t.stores = s.stores ∧ t.isOpen = s.isOpen ∧ t.cmd = s.cmd ∧ t.draws = s.draws ∧
      t.w = s.w ∧ t.tr = s.tr.padded ∧ t.cfg = s.cfg ∧ t.units = s.units

/-- R31, R172: a transfer that waits and is then sent bytes ends as it would have ended with those
bytes queued from the start: where a procedure is split by a wait does not matter. -/
def Obligations.WaitingIsInvisible : Prop :=
  ∀ (i : Instr) (s t : State) (p : XferPhase) (bs : List Byte), i.isTransfer = true →
    s.env = [] → exec i s = .next t → t.phase = .xfer p →
    exec i { t with rxq := t.rxq ++ bs } = exec i { s with rxq := s.rxq ++ bs }

/-- R15, R31: one primitive of a transfer appends exactly one event to the trace (the pad none),
and moves to the phase that follows it. -/
def Obligations.PrimitivesInOrder : Prop :=
  ∀ (b : Byte) (p : XferPhase) (s t : State), xferStep b p s = .ok () t →
    (p = .wrPad → t.trace = s.trace) ∧ (p ≠ .wrPad → ∃ e, t.trace = s.trace ++ [e]) ∧
    t.phase = match p with
      | .params => .xfer .setup
      | .setup => .xfer .ack
      | .ack => if s.tr.ok then
          (match s.tr.dir with
            | .read => .xfer .rdFetch
            | .write => .xfer .wrRecv)
        else .idle
      | .rdFetch => .xfer .rdSend
      | .rdSend => .xfer .rdDrain
      | .rdDrain => .xfer .rdFinal
      | .rdFinal => .idle
      | .wrRecv => .xfer .wrDrain
      | .wrDrain => .xfer .wrPad
      | .wrPad => .xfer .wrAck
      | .wrAck => if s.desync then .idle else .xfer .wrCommit
      | .wrCommit => .xfer .wrFlush
      | .wrFlush => .idle

/-- R106, R76: whatever the environment does, and in whatever phase the transfer is begun or taken
up, every byte it sends has bits 7:6 zero. -/
def Obligations.TransferSendsSixBitBytes : Prop :=
  ∀ (i : Instr) (s t : State), i.isTransfer = true → exec i s = .next t →
    ∃ sent, t.tx = s.tx ++ sent ∧ ∀ b ∈ sent, b.toNat < 64

/-! ### Stores (20_memory.md) -/

/-- R91: bytes read back from where they were written are the bytes written, and bytes elsewhere
below the old end are as they were. -/
def Obligations.StoreReadSeesLastWrite : Prop :=
  ∀ (st : Store) (off : Nat) (bs : List Byte) (draws : Nat), st.wf →
    (st.writeBytes off bs).readBytes off bs.length draws = bs ∧
    ∀ a, a < st.len → ¬(off ≤ a ∧ a < off + bs.length) →
      (st.writeBytes off bs).byteAt a = st.byteAt a

/-- R81: a read gives exactly the bytes asked for: the stored byte below the end of the store, a
draw at or past it. It holds for every value of the draw counter, a field of the model's own
(notes/assumptions 14). -/
def Obligations.ReadPastEndIsDrawn : Prop :=
  ∀ (st : Store) (off n draws : Nat),
    (st.readBytes off n draws).length = n ∧
    ∀ i, i < n → (st.readBytes off n draws)[i]? =
      some (if off + i < st.len then st.cells.read (off + i) else Config.eofFill (draws + i))

/-! ### Faults and cancellation (60_exceptions.md) -/

/-- R310, R311: a primitive that the environment makes fail after `k` bytes moves the engine to
`FATAL`, with the partial effect the spec allows it and no other. The form of the environment's
choice and the one event recorded are the model's (notes/assumptions 12, 13). -/
def Obligations.FailingPrimitives : Prop :=
  ∀ (s : State) (k : Nat), s.failNow = some k →
    (∀ n, recv n s = .stop (.next { s.advance with
      rxq := s.advance.rxq.drop k, phase := .fatal ⟨.recv, none⟩,
      trace := s.trace ++ [.fatal ⟨.recv, none⟩] })) ∧
    (∀ bs, send bs s = .stop (.next { s.advance with
      tx := s.tx ++ bs.take k, phase := .fatal ⟨.send, none⟩,
      trace := s.trace ++ [.fatal ⟨.send, none⟩] })) ∧
    drain s = .stop (.next { s.advance with
      rxq := s.advance.rxq.drop k, phase := .fatal ⟨.drain, none⟩,
      trace := s.trace ++ [.fatal ⟨.drain, none⟩] }) ∧
    ∀ u, s.isOpen.get u = true →
      (∀ off n, storeRead u off n s = .stop (.next { s.advance with
        phase := .fatal ⟨.storeRead, some u⟩,
        trace := s.trace ++ [.fatal ⟨.storeRead, some u⟩] })) ∧
      (∀ off bs, storeWrite u off bs s = .stop (.next { s.advance with
        stores := s.stores.set u ((s.stores.get u).writeBytes off (bs.take k)),
        phase := .fatal ⟨.storeWrite, some u⟩,
        trace := s.trace ++ [.fatal ⟨.storeWrite, some u⟩] })) ∧
      storeFlush u s = .stop (.next { s.advance with
        phase := .fatal ⟨.storeFlush, some u⟩,
        trace := s.trace ++ [.fatal ⟨.storeFlush, some u⟩] }) ∧
      storeClose u s = .stop (.next { s.advance with
        phase := .fatal ⟨.storeClose, some u⟩,
        trace := s.trace ++ [.fatal ⟨.storeClose, some u⟩] })

/-- R321: no command reads, sets or clears the cancel request: with the request set it does exactly
what it does without, and the request is still set; and a request that the environment does not set
during the command is as it was. -/
def Obligations.CancelDoesNotReachACommand : Prop :=
  ∀ (i : Instr) (s : State),
    (match exec i s with
      | .next t => exec i { s with cancel := true } = .next { t with cancel := true }
      | .fault f => exec i { s with cancel := true } = .fault f
      | .refused r => exec i { s with cancel := true } = .refused r) ∧
    ∀ t, exec i s = .next t → (∀ m ∈ s.env, m.cancel = false) → t.cancel = s.cancel

/-- R30, R324: a final phase has no step. That the missing step is a fault is the model's choice
(notes/assumptions 10). -/
def Obligations.FinalPhasesHaveNoStep : Prop :=
  ∀ s : State, s.phase.isFinal = true → ∃ f, step s = .fault f

/-- R173, R32: from `IDLE`, or from a wait inside a transfer, a step ends in `IDLE` or in such a wait,
unless it took `QUIT` in `IDLE`, or the cancel request was set in `IDLE`, or the environment made a
primitive fail. That a step ends only there, never inside a procedure that does not wait, is the
model's grain (notes/assumptions 9), and that the wait is a step is its choice (notes/assumptions
11). -/
def Obligations.OnlyQuitCancelAndFaultsLeaveTheCycle : Prop :=
  ∀ s t : State,
    (s.phase = .idle ∨ (s.phase.isWait = true ∧ (decodeCommand s.cmd).isTransfer = true)) →
    step s = .next t →
    t.phase = .idle ∨ t.phase.isWait = true ∨
    (t.phase = .halted .quit ∧ s.phase = .idle ∧ s.advance.rxq.head? = some 0x51#8) ∨
    (t.phase = .halted .cancel ∧ s.phase = .idle ∧ s.advance.cancel = true) ∨
    (∃ info, t.phase = .fatal info ∧ ∃ m ∈ s.env, m.fail ≠ none)

/-! ### The machine as a whole -/

/-- R342: without unit 0 the reset ends in `REFUSED`, performing no primitive, and there the
engine has no step. That the missing step is a fault is the model's choice (notes/assumptions
10). -/
def Obligations.ResetRefusesWithoutUnitZero : Prop :=
  ∀ s : State, s.phase = .reset → s.cfg.wf → s.units.u0.inUse = false →
    ∃ t, step s = .next t ∧ t.phase = .refused ∧ t.trace = s.trace ++ [.refused] ∧
      t.rxq = s.rxq ∧ t.tx = s.tx ∧ t.stores = s.stores ∧ step t = .fault .engineRefused

/-- R341: a configuration that is not well formed is refused: one outside R11, or, as the model
reads R273 into it (notes/assumptions 16), one whose `help_byte` is not injective; else, without
unit 0, the engine is in `REFUSED`; else the reset opens exactly the stores of the units in use,
clears the cancel request and the transmitted bytes, and leaves the engine in `IDLE` with the launch
parameters as they were. -/
def Obligations.ResetSequence : Prop :=
  ∀ s : State, s.phase = .reset →
    (¬ s.cfg.wf → step s = .refused .badConfiguration) ∧
    (s.cfg.wf → s.units.u0.inUse = false → ∃ t, step s = .next t ∧ t.phase = .refused) ∧
    (s.cfg.wf → s.units.u0.inUse = true →
      ∃ t, step s = .next t ∧ t.phase = .idle ∧
        (∀ u, t.isOpen.get u = (s.units.get u).inUse) ∧ t.cancel = false ∧ t.tx = [] ∧
        t.rxq = s.rxq ∧ t.stores = s.stores ∧ t.cfg = s.cfg ∧ t.units = s.units ∧
        t.trace = s.trace)

/-- The state right after reset, in the fields R52 gives a value: `IDLE`, the stores of the units
in use open, no cancel request, nothing sent. Which units are in use is the model's choice
(notes/assumptions 4). -/
def Obligations.ResetStateValues : Prop :=
  State.reset.phase = .idle ∧
  (∀ u, State.reset.isOpen.get u = (State.reset.units.get u).inUse) ∧
  State.reset.cancel = false ∧ State.reset.tx = [] ∧ State.reset.units.u0.inUse = true

/-- The state right after reset is sound: exactly the stores of the units in use are open (R39),
unit 0 is in use (R35) and the configuration is within R11. That the stores are in their one form
(notes/assumptions 5) and that `help_byte` is injective (R273 read as well-formedness,
notes/assumptions 16) are the model's clauses, and the launch it holds of, its configuration, units,
stores and empty queue, is the model's choice (notes/assumptions 2, 4, 5). -/
def Obligations.ResetIsSound : Prop := Sound State.reset

/-- Every step keeps the state sound: in every phase the stores keep their one form, exactly the
stores of the units in use are open while the engine runs, an executor works only on the request
that the resolver built for the command and accepted, and a write commits whole blocks. Three
clauses are the model's choice: the one form of a store (notes/assumptions 5), that no step ends
inside a boot command or `QUIT` (notes/assumptions 9), and that `help_byte`'s injectivity counts as
well-formedness (notes/assumptions 16). -/
def Obligations.StepKeepsSound : Prop :=
  ∀ s t : State, Sound s → step s = .next t → Sound t

/-- A sound engine that is not in a final phase always has a next state: no store primitive is
ever performed on a store that is not open (R36, R39), and no odd-length list reaches the codec
(R145, R146). In an empty `IDLE` or a stalled `Recv`, where the spec gives the engine no step, the
next state is the wait, which the model chose to be a step (notes/assumptions 11). -/
def Obligations.SoundEngineNeverStops : Prop :=
  ∀ s : State, Sound s → s.phase.isFinal = false → (s.phase = .reset → s.cfg.wf) →
    ∃ t, step s = .next t

/-- R37: no step writes the configuration or the unit table. -/
def Obligations.ConfigurationIsReadOnly : Prop :=
  ∀ s t : State, step s = .next t → t.cfg = s.cfg ∧ t.units = s.units

/-- R48, R70: after reset, what was sent and what was recorded is never taken back. -/
def Obligations.TraceAndTransmitOnlyGrow : Prop :=
  ∀ s t : State, s.phase ≠ .reset → step s = .next t →
    s.trace <+: t.trace ∧ s.tx <+: t.tx

/-- R72, R70: as long as no fault ends the run, the bytes transmitted are exactly those of the
`Send` events of the trace, in order. -/
def Obligations.TraceExplainsTransmit : Prop :=
  ∀ s t : State, s.phase ≠ .reset → sentBytes s.trace = s.tx → step s = .next t →
    (∀ info, t.phase ≠ .fatal info) → sentBytes t.trace = t.tx
end

