-- ==== Sys2Proof/Laws/State.lean ====
section
/-! SUPPORT. One lemma for each field after each update of the state, so that no proof unfolds an
update; and the entries of a `PerUnit` after a `set` or a `map`. -/

namespace Sys2Proof.Machine

variable (s : State)

/-! ### `withPhase` -/

@[simp] theorem withPhase_phase (p : Phase) : (s.withPhase p).phase = p := rfl
@[simp] theorem withPhase_cfg (p : Phase) : (s.withPhase p).cfg = s.cfg := rfl
@[simp] theorem withPhase_units (p : Phase) : (s.withPhase p).units = s.units := rfl
@[simp] theorem withPhase_isOpen (p : Phase) : (s.withPhase p).isOpen = s.isOpen := rfl
@[simp] theorem withPhase_cmd (p : Phase) : (s.withPhase p).cmd = s.cmd := rfl
@[simp] theorem withPhase_w (p : Phase) : (s.withPhase p).w = s.w := rfl
@[simp] theorem withPhase_tr (p : Phase) : (s.withPhase p).tr = s.tr := rfl
@[simp] theorem withPhase_buf (p : Phase) : (s.withPhase p).buf = s.buf := rfl
@[simp] theorem withPhase_desync (p : Phase) : (s.withPhase p).desync = s.desync := rfl
@[simp] theorem withPhase_cancel (p : Phase) : (s.withPhase p).cancel = s.cancel := rfl
@[simp] theorem withPhase_rxq (p : Phase) : (s.withPhase p).rxq = s.rxq := rfl
@[simp] theorem withPhase_tx (p : Phase) : (s.withPhase p).tx = s.tx := rfl
@[simp] theorem withPhase_stores (p : Phase) : (s.withPhase p).stores = s.stores := rfl
@[simp] theorem withPhase_trace (p : Phase) : (s.withPhase p).trace = s.trace := rfl
@[simp] theorem withPhase_env (p : Phase) : (s.withPhase p).env = s.env := rfl
@[simp] theorem withPhase_draws (p : Phase) : (s.withPhase p).draws = s.draws := rfl

/-! ### `withRxq` -/

@[simp] theorem withRxq_phase (q : List Byte) : (s.withRxq q).phase = s.phase := rfl
@[simp] theorem withRxq_cfg (q : List Byte) : (s.withRxq q).cfg = s.cfg := rfl
@[simp] theorem withRxq_units (q : List Byte) : (s.withRxq q).units = s.units := rfl
@[simp] theorem withRxq_isOpen (q : List Byte) : (s.withRxq q).isOpen = s.isOpen := rfl
@[simp] theorem withRxq_cmd (q : List Byte) : (s.withRxq q).cmd = s.cmd := rfl
@[simp] theorem withRxq_w (q : List Byte) : (s.withRxq q).w = s.w := rfl
@[simp] theorem withRxq_tr (q : List Byte) : (s.withRxq q).tr = s.tr := rfl
@[simp] theorem withRxq_buf (q : List Byte) : (s.withRxq q).buf = s.buf := rfl
@[simp] theorem withRxq_desync (q : List Byte) : (s.withRxq q).desync = s.desync := rfl
@[simp] theorem withRxq_cancel (q : List Byte) : (s.withRxq q).cancel = s.cancel := rfl
@[simp] theorem withRxq_rxq (q : List Byte) : (s.withRxq q).rxq = q := rfl
@[simp] theorem withRxq_tx (q : List Byte) : (s.withRxq q).tx = s.tx := rfl
@[simp] theorem withRxq_stores (q : List Byte) : (s.withRxq q).stores = s.stores := rfl
@[simp] theorem withRxq_trace (q : List Byte) : (s.withRxq q).trace = s.trace := rfl
@[simp] theorem withRxq_env (q : List Byte) : (s.withRxq q).env = s.env := rfl
@[simp] theorem withRxq_draws (q : List Byte) : (s.withRxq q).draws = s.draws := rfl

/-! ### `withTx` -/

@[simp] theorem withTx_phase (bs : List Byte) : (s.withTx bs).phase = s.phase := rfl
@[simp] theorem withTx_cfg (bs : List Byte) : (s.withTx bs).cfg = s.cfg := rfl
@[simp] theorem withTx_units (bs : List Byte) : (s.withTx bs).units = s.units := rfl
@[simp] theorem withTx_isOpen (bs : List Byte) : (s.withTx bs).isOpen = s.isOpen := rfl
@[simp] theorem withTx_cmd (bs : List Byte) : (s.withTx bs).cmd = s.cmd := rfl
@[simp] theorem withTx_w (bs : List Byte) : (s.withTx bs).w = s.w := rfl
@[simp] theorem withTx_tr (bs : List Byte) : (s.withTx bs).tr = s.tr := rfl
@[simp] theorem withTx_buf (bs : List Byte) : (s.withTx bs).buf = s.buf := rfl
@[simp] theorem withTx_desync (bs : List Byte) : (s.withTx bs).desync = s.desync := rfl
@[simp] theorem withTx_cancel (bs : List Byte) : (s.withTx bs).cancel = s.cancel := rfl
@[simp] theorem withTx_rxq (bs : List Byte) : (s.withTx bs).rxq = s.rxq := rfl
@[simp] theorem withTx_tx (bs : List Byte) : (s.withTx bs).tx = bs := rfl
@[simp] theorem withTx_stores (bs : List Byte) : (s.withTx bs).stores = s.stores := rfl
@[simp] theorem withTx_trace (bs : List Byte) : (s.withTx bs).trace = s.trace := rfl
@[simp] theorem withTx_env (bs : List Byte) : (s.withTx bs).env = s.env := rfl
@[simp] theorem withTx_draws (bs : List Byte) : (s.withTx bs).draws = s.draws := rfl

/-! ### `withCmd` -/

@[simp] theorem withCmd_phase (b : Byte) : (s.withCmd b).phase = s.phase := rfl
@[simp] theorem withCmd_cfg (b : Byte) : (s.withCmd b).cfg = s.cfg := rfl
@[simp] theorem withCmd_units (b : Byte) : (s.withCmd b).units = s.units := rfl
@[simp] theorem withCmd_isOpen (b : Byte) : (s.withCmd b).isOpen = s.isOpen := rfl
@[simp] theorem withCmd_cmd (b : Byte) : (s.withCmd b).cmd = b := rfl
@[simp] theorem withCmd_w (b : Byte) : (s.withCmd b).w = s.w := rfl
@[simp] theorem withCmd_tr (b : Byte) : (s.withCmd b).tr = s.tr := rfl
@[simp] theorem withCmd_buf (b : Byte) : (s.withCmd b).buf = s.buf := rfl
@[simp] theorem withCmd_desync (b : Byte) : (s.withCmd b).desync = s.desync := rfl
@[simp] theorem withCmd_cancel (b : Byte) : (s.withCmd b).cancel = s.cancel := rfl
@[simp] theorem withCmd_rxq (b : Byte) : (s.withCmd b).rxq = s.rxq := rfl
@[simp] theorem withCmd_tx (b : Byte) : (s.withCmd b).tx = s.tx := rfl
@[simp] theorem withCmd_stores (b : Byte) : (s.withCmd b).stores = s.stores := rfl
@[simp] theorem withCmd_trace (b : Byte) : (s.withCmd b).trace = s.trace := rfl
@[simp] theorem withCmd_env (b : Byte) : (s.withCmd b).env = s.env := rfl
@[simp] theorem withCmd_draws (b : Byte) : (s.withCmd b).draws = s.draws := rfl

/-! ### `withParams` -/

@[simp] theorem withParams_phase (r : ParamRegs) : (s.withParams r).phase = s.phase := rfl
@[simp] theorem withParams_cfg (r : ParamRegs) : (s.withParams r).cfg = s.cfg := rfl
@[simp] theorem withParams_units (r : ParamRegs) : (s.withParams r).units = s.units := rfl
@[simp] theorem withParams_isOpen (r : ParamRegs) : (s.withParams r).isOpen = s.isOpen := rfl
@[simp] theorem withParams_cmd (r : ParamRegs) : (s.withParams r).cmd = s.cmd := rfl
@[simp] theorem withParams_w (r : ParamRegs) : (s.withParams r).w = r := rfl
@[simp] theorem withParams_tr (r : ParamRegs) : (s.withParams r).tr = s.tr := rfl
@[simp] theorem withParams_buf (r : ParamRegs) : (s.withParams r).buf = s.buf := rfl
@[simp] theorem withParams_desync (r : ParamRegs) : (s.withParams r).desync = s.desync := rfl
@[simp] theorem withParams_cancel (r : ParamRegs) : (s.withParams r).cancel = s.cancel := rfl
@[simp] theorem withParams_rxq (r : ParamRegs) : (s.withParams r).rxq = s.rxq := rfl
@[simp] theorem withParams_tx (r : ParamRegs) : (s.withParams r).tx = s.tx := rfl
@[simp] theorem withParams_stores (r : ParamRegs) : (s.withParams r).stores = s.stores := rfl
@[simp] theorem withParams_trace (r : ParamRegs) : (s.withParams r).trace = s.trace := rfl
@[simp] theorem withParams_env (r : ParamRegs) : (s.withParams r).env = s.env := rfl
@[simp] theorem withParams_draws (r : ParamRegs) : (s.withParams r).draws = s.draws := rfl

/-! ### `withRequest` -/

@[simp] theorem withRequest_phase (r : TransferRequest) : (s.withRequest r).phase = s.phase := rfl
@[simp] theorem withRequest_cfg (r : TransferRequest) : (s.withRequest r).cfg = s.cfg := rfl
@[simp] theorem withRequest_units (r : TransferRequest) : (s.withRequest r).units = s.units := rfl
@[simp] theorem withRequest_isOpen (r : TransferRequest) : (s.withRequest r).isOpen = s.isOpen := rfl
@[simp] theorem withRequest_cmd (r : TransferRequest) : (s.withRequest r).cmd = s.cmd := rfl
@[simp] theorem withRequest_w (r : TransferRequest) : (s.withRequest r).w = s.w := rfl
@[simp] theorem withRequest_tr (r : TransferRequest) : (s.withRequest r).tr = r := rfl
@[simp] theorem withRequest_buf (r : TransferRequest) : (s.withRequest r).buf = s.buf := rfl
@[simp] theorem withRequest_desync (r : TransferRequest) : (s.withRequest r).desync = s.desync := rfl
@[simp] theorem withRequest_cancel (r : TransferRequest) : (s.withRequest r).cancel = s.cancel := rfl
@[simp] theorem withRequest_rxq (r : TransferRequest) : (s.withRequest r).rxq = s.rxq := rfl
@[simp] theorem withRequest_tx (r : TransferRequest) : (s.withRequest r).tx = s.tx := rfl
@[simp] theorem withRequest_stores (r : TransferRequest) : (s.withRequest r).stores = s.stores := rfl
@[simp] theorem withRequest_trace (r : TransferRequest) : (s.withRequest r).trace = s.trace := rfl
@[simp] theorem withRequest_env (r : TransferRequest) : (s.withRequest r).env = s.env := rfl
@[simp] theorem withRequest_draws (r : TransferRequest) : (s.withRequest r).draws = s.draws := rfl

/-! ### `withBuf` -/

@[simp] theorem withBuf_phase (bs : List Byte) : (s.withBuf bs).phase = s.phase := rfl
@[simp] theorem withBuf_cfg (bs : List Byte) : (s.withBuf bs).cfg = s.cfg := rfl
@[simp] theorem withBuf_units (bs : List Byte) : (s.withBuf bs).units = s.units := rfl
@[simp] theorem withBuf_isOpen (bs : List Byte) : (s.withBuf bs).isOpen = s.isOpen := rfl
@[simp] theorem withBuf_cmd (bs : List Byte) : (s.withBuf bs).cmd = s.cmd := rfl
@[simp] theorem withBuf_w (bs : List Byte) : (s.withBuf bs).w = s.w := rfl
@[simp] theorem withBuf_tr (bs : List Byte) : (s.withBuf bs).tr = s.tr := rfl
@[simp] theorem withBuf_buf (bs : List Byte) : (s.withBuf bs).buf = bs := rfl
@[simp] theorem withBuf_desync (bs : List Byte) : (s.withBuf bs).desync = s.desync := rfl
@[simp] theorem withBuf_cancel (bs : List Byte) : (s.withBuf bs).cancel = s.cancel := rfl
@[simp] theorem withBuf_rxq (bs : List Byte) : (s.withBuf bs).rxq = s.rxq := rfl
@[simp] theorem withBuf_tx (bs : List Byte) : (s.withBuf bs).tx = s.tx := rfl
@[simp] theorem withBuf_stores (bs : List Byte) : (s.withBuf bs).stores = s.stores := rfl
@[simp] theorem withBuf_trace (bs : List Byte) : (s.withBuf bs).trace = s.trace := rfl
@[simp] theorem withBuf_env (bs : List Byte) : (s.withBuf bs).env = s.env := rfl
@[simp] theorem withBuf_draws (bs : List Byte) : (s.withBuf bs).draws = s.draws := rfl

/-! ### `withDesync` -/

@[simp] theorem withDesync_phase (d : Bool) : (s.withDesync d).phase = s.phase := rfl
@[simp] theorem withDesync_cfg (d : Bool) : (s.withDesync d).cfg = s.cfg := rfl
@[simp] theorem withDesync_units (d : Bool) : (s.withDesync d).units = s.units := rfl
@[simp] theorem withDesync_isOpen (d : Bool) : (s.withDesync d).isOpen = s.isOpen := rfl
@[simp] theorem withDesync_cmd (d : Bool) : (s.withDesync d).cmd = s.cmd := rfl
@[simp] theorem withDesync_w (d : Bool) : (s.withDesync d).w = s.w := rfl
@[simp] theorem withDesync_tr (d : Bool) : (s.withDesync d).tr = s.tr := rfl
@[simp] theorem withDesync_buf (d : Bool) : (s.withDesync d).buf = s.buf := rfl
@[simp] theorem withDesync_desync (d : Bool) : (s.withDesync d).desync = d := rfl
@[simp] theorem withDesync_cancel (d : Bool) : (s.withDesync d).cancel = s.cancel := rfl
@[simp] theorem withDesync_rxq (d : Bool) : (s.withDesync d).rxq = s.rxq := rfl
@[simp] theorem withDesync_tx (d : Bool) : (s.withDesync d).tx = s.tx := rfl
@[simp] theorem withDesync_stores (d : Bool) : (s.withDesync d).stores = s.stores := rfl
@[simp] theorem withDesync_trace (d : Bool) : (s.withDesync d).trace = s.trace := rfl
@[simp] theorem withDesync_env (d : Bool) : (s.withDesync d).env = s.env := rfl
@[simp] theorem withDesync_draws (d : Bool) : (s.withDesync d).draws = s.draws := rfl

/-! ### `withOpen` -/

@[simp] theorem withOpen_phase (o : PerUnit Bool) : (s.withOpen o).phase = s.phase := rfl
@[simp] theorem withOpen_cfg (o : PerUnit Bool) : (s.withOpen o).cfg = s.cfg := rfl
@[simp] theorem withOpen_units (o : PerUnit Bool) : (s.withOpen o).units = s.units := rfl
@[simp] theorem withOpen_isOpen (o : PerUnit Bool) : (s.withOpen o).isOpen = o := rfl
@[simp] theorem withOpen_cmd (o : PerUnit Bool) : (s.withOpen o).cmd = s.cmd := rfl
@[simp] theorem withOpen_w (o : PerUnit Bool) : (s.withOpen o).w = s.w := rfl
@[simp] theorem withOpen_tr (o : PerUnit Bool) : (s.withOpen o).tr = s.tr := rfl
@[simp] theorem withOpen_buf (o : PerUnit Bool) : (s.withOpen o).buf = s.buf := rfl
@[simp] theorem withOpen_desync (o : PerUnit Bool) : (s.withOpen o).desync = s.desync := rfl
@[simp] theorem withOpen_cancel (o : PerUnit Bool) : (s.withOpen o).cancel = s.cancel := rfl
@[simp] theorem withOpen_rxq (o : PerUnit Bool) : (s.withOpen o).rxq = s.rxq := rfl
@[simp] theorem withOpen_tx (o : PerUnit Bool) : (s.withOpen o).tx = s.tx := rfl
@[simp] theorem withOpen_stores (o : PerUnit Bool) : (s.withOpen o).stores = s.stores := rfl
@[simp] theorem withOpen_trace (o : PerUnit Bool) : (s.withOpen o).trace = s.trace := rfl
@[simp] theorem withOpen_env (o : PerUnit Bool) : (s.withOpen o).env = s.env := rfl
@[simp] theorem withOpen_draws (o : PerUnit Bool) : (s.withOpen o).draws = s.draws := rfl

/-! ### `withDraws` -/

@[simp] theorem withDraws_phase (n : Nat) : (s.withDraws n).phase = s.phase := rfl
@[simp] theorem withDraws_cfg (n : Nat) : (s.withDraws n).cfg = s.cfg := rfl
@[simp] theorem withDraws_units (n : Nat) : (s.withDraws n).units = s.units := rfl
@[simp] theorem withDraws_isOpen (n : Nat) : (s.withDraws n).isOpen = s.isOpen := rfl
@[simp] theorem withDraws_cmd (n : Nat) : (s.withDraws n).cmd = s.cmd := rfl
@[simp] theorem withDraws_w (n : Nat) : (s.withDraws n).w = s.w := rfl
@[simp] theorem withDraws_tr (n : Nat) : (s.withDraws n).tr = s.tr := rfl
@[simp] theorem withDraws_buf (n : Nat) : (s.withDraws n).buf = s.buf := rfl
@[simp] theorem withDraws_desync (n : Nat) : (s.withDraws n).desync = s.desync := rfl
@[simp] theorem withDraws_cancel (n : Nat) : (s.withDraws n).cancel = s.cancel := rfl
@[simp] theorem withDraws_rxq (n : Nat) : (s.withDraws n).rxq = s.rxq := rfl
@[simp] theorem withDraws_tx (n : Nat) : (s.withDraws n).tx = s.tx := rfl
@[simp] theorem withDraws_stores (n : Nat) : (s.withDraws n).stores = s.stores := rfl
@[simp] theorem withDraws_trace (n : Nat) : (s.withDraws n).trace = s.trace := rfl
@[simp] theorem withDraws_env (n : Nat) : (s.withDraws n).env = s.env := rfl
@[simp] theorem withDraws_draws (n : Nat) : (s.withDraws n).draws = n := rfl

/-! ### `record` -/

@[simp] theorem record_phase (e : Event) : (s.record e).phase = s.phase := rfl
@[simp] theorem record_cfg (e : Event) : (s.record e).cfg = s.cfg := rfl
@[simp] theorem record_units (e : Event) : (s.record e).units = s.units := rfl
@[simp] theorem record_isOpen (e : Event) : (s.record e).isOpen = s.isOpen := rfl
@[simp] theorem record_cmd (e : Event) : (s.record e).cmd = s.cmd := rfl
@[simp] theorem record_w (e : Event) : (s.record e).w = s.w := rfl
@[simp] theorem record_tr (e : Event) : (s.record e).tr = s.tr := rfl
@[simp] theorem record_buf (e : Event) : (s.record e).buf = s.buf := rfl
@[simp] theorem record_desync (e : Event) : (s.record e).desync = s.desync := rfl
@[simp] theorem record_cancel (e : Event) : (s.record e).cancel = s.cancel := rfl
@[simp] theorem record_rxq (e : Event) : (s.record e).rxq = s.rxq := rfl
@[simp] theorem record_tx (e : Event) : (s.record e).tx = s.tx := rfl
@[simp] theorem record_stores (e : Event) : (s.record e).stores = s.stores := rfl
@[simp] theorem record_trace (e : Event) : (s.record e).trace = s.trace ++ [e] := rfl
@[simp] theorem record_env (e : Event) : (s.record e).env = s.env := rfl
@[simp] theorem record_draws (e : Event) : (s.record e).draws = s.draws := rfl

/-! ### `advance` -/

@[simp] theorem advance_phase : s.advance.phase = s.phase := rfl
@[simp] theorem advance_cfg : s.advance.cfg = s.cfg := rfl
@[simp] theorem advance_units : s.advance.units = s.units := rfl
@[simp] theorem advance_isOpen : s.advance.isOpen = s.isOpen := rfl
@[simp] theorem advance_cmd : s.advance.cmd = s.cmd := rfl
@[simp] theorem advance_w : s.advance.w = s.w := rfl
@[simp] theorem advance_tr : s.advance.tr = s.tr := rfl
@[simp] theorem advance_buf : s.advance.buf = s.buf := rfl
@[simp] theorem advance_desync : s.advance.desync = s.desync := rfl
@[simp] theorem advance_cancel : s.advance.cancel = (s.cancel || headCancel s.env) := rfl
@[simp] theorem advance_rxq : s.advance.rxq = s.rxq ++ headArrive s.env := rfl
@[simp] theorem advance_tx : s.advance.tx = s.tx := rfl
@[simp] theorem advance_stores : s.advance.stores = s.stores := rfl
@[simp] theorem advance_trace : s.advance.trace = s.trace := rfl
@[simp] theorem advance_env : s.advance.env = s.env.tail := rfl
@[simp] theorem advance_draws : s.advance.draws = s.draws := rfl

/-! ### `raiseFatal` -/

@[simp] theorem raiseFatal_phase (p : Primitive) (u : Option UnitNo) : (raiseFatal p u s).phase = .fatal ⟨p, u⟩ := rfl
@[simp] theorem raiseFatal_cfg (p : Primitive) (u : Option UnitNo) : (raiseFatal p u s).cfg = s.cfg := rfl
@[simp] theorem raiseFatal_units (p : Primitive) (u : Option UnitNo) : (raiseFatal p u s).units = s.units := rfl
@[simp] theorem raiseFatal_isOpen (p : Primitive) (u : Option UnitNo) : (raiseFatal p u s).isOpen = s.isOpen := rfl
@[simp] theorem raiseFatal_cmd (p : Primitive) (u : Option UnitNo) : (raiseFatal p u s).cmd = s.cmd := rfl
@[simp] theorem raiseFatal_w (p : Primitive) (u : Option UnitNo) : (raiseFatal p u s).w = s.w := rfl
@[simp] theorem raiseFatal_tr (p : Primitive) (u : Option UnitNo) : (raiseFatal p u s).tr = s.tr := rfl
@[simp] theorem raiseFatal_buf (p : Primitive) (u : Option UnitNo) : (raiseFatal p u s).buf = s.buf := rfl
@[simp] theorem raiseFatal_desync (p : Primitive) (u : Option UnitNo) : (raiseFatal p u s).desync = s.desync := rfl
@[simp] theorem raiseFatal_cancel (p : Primitive) (u : Option UnitNo) : (raiseFatal p u s).cancel = s.cancel := rfl
@[simp] theorem raiseFatal_rxq (p : Primitive) (u : Option UnitNo) : (raiseFatal p u s).rxq = s.rxq := rfl
@[simp] theorem raiseFatal_tx (p : Primitive) (u : Option UnitNo) : (raiseFatal p u s).tx = s.tx := rfl
@[simp] theorem raiseFatal_stores (p : Primitive) (u : Option UnitNo) : (raiseFatal p u s).stores = s.stores := rfl
@[simp] theorem raiseFatal_trace (p : Primitive) (u : Option UnitNo) : (raiseFatal p u s).trace = s.trace ++ [.fatal ⟨p, u⟩] := rfl
@[simp] theorem raiseFatal_env (p : Primitive) (u : Option UnitNo) : (raiseFatal p u s).env = s.env := rfl
@[simp] theorem raiseFatal_draws (p : Primitive) (u : Option UnitNo) : (raiseFatal p u s).draws = s.draws := rfl

/-! ### `writeStore` -/

@[simp] theorem writeStore_phase (u : UnitNo) (off : Nat) (bs : List Byte) : (s.writeStore u off bs).phase = s.phase := rfl
@[simp] theorem writeStore_cfg (u : UnitNo) (off : Nat) (bs : List Byte) : (s.writeStore u off bs).cfg = s.cfg := rfl
@[simp] theorem writeStore_units (u : UnitNo) (off : Nat) (bs : List Byte) : (s.writeStore u off bs).units = s.units := rfl
@[simp] theorem writeStore_isOpen (u : UnitNo) (off : Nat) (bs : List Byte) : (s.writeStore u off bs).isOpen = s.isOpen := rfl
@[simp] theorem writeStore_cmd (u : UnitNo) (off : Nat) (bs : List Byte) : (s.writeStore u off bs).cmd = s.cmd := rfl
@[simp] theorem writeStore_w (u : UnitNo) (off : Nat) (bs : List Byte) : (s.writeStore u off bs).w = s.w := rfl
@[simp] theorem writeStore_tr (u : UnitNo) (off : Nat) (bs : List Byte) : (s.writeStore u off bs).tr = s.tr := rfl
@[simp] theorem writeStore_buf (u : UnitNo) (off : Nat) (bs : List Byte) : (s.writeStore u off bs).buf = s.buf := rfl
@[simp] theorem writeStore_desync (u : UnitNo) (off : Nat) (bs : List Byte) : (s.writeStore u off bs).desync = s.desync := rfl
@[simp] theorem writeStore_cancel (u : UnitNo) (off : Nat) (bs : List Byte) : (s.writeStore u off bs).cancel = s.cancel := rfl
@[simp] theorem writeStore_rxq (u : UnitNo) (off : Nat) (bs : List Byte) : (s.writeStore u off bs).rxq = s.rxq := rfl
@[simp] theorem writeStore_tx (u : UnitNo) (off : Nat) (bs : List Byte) : (s.writeStore u off bs).tx = s.tx := rfl
@[simp] theorem writeStore_stores (u : UnitNo) (off : Nat) (bs : List Byte) : (s.writeStore u off bs).stores = s.stores.set u ((s.stores.get u).writeBytes off bs) := rfl
@[simp] theorem writeStore_trace (u : UnitNo) (off : Nat) (bs : List Byte) : (s.writeStore u off bs).trace = s.trace := rfl
@[simp] theorem writeStore_env (u : UnitNo) (off : Nat) (bs : List Byte) : (s.writeStore u off bs).env = s.env := rfl
@[simp] theorem writeStore_draws (u : UnitNo) (off : Nat) (bs : List Byte) : (s.writeStore u off bs).draws = s.draws := rfl

/-! ### `goIdle` -/

@[simp] theorem goIdle_phase : s.goIdle.phase = .idle := rfl
@[simp] theorem goIdle_cfg : s.goIdle.cfg = s.cfg := rfl
@[simp] theorem goIdle_units : s.goIdle.units = s.units := rfl
@[simp] theorem goIdle_isOpen : s.goIdle.isOpen = s.isOpen := rfl
@[simp] theorem goIdle_cmd : s.goIdle.cmd = s.cmd := rfl
@[simp] theorem goIdle_w : s.goIdle.w = s.w := rfl
@[simp] theorem goIdle_tr : s.goIdle.tr = s.tr := rfl
@[simp] theorem goIdle_buf : s.goIdle.buf = s.buf := rfl
@[simp] theorem goIdle_desync : s.goIdle.desync = s.desync := rfl
@[simp] theorem goIdle_cancel : s.goIdle.cancel = s.cancel := rfl
@[simp] theorem goIdle_rxq : s.goIdle.rxq = s.rxq := rfl
@[simp] theorem goIdle_tx : s.goIdle.tx = s.tx := rfl
@[simp] theorem goIdle_stores : s.goIdle.stores = s.stores := rfl
@[simp] theorem goIdle_trace : s.goIdle.trace = s.trace := rfl
@[simp] theorem goIdle_env : s.goIdle.env = s.env := rfl
@[simp] theorem goIdle_draws : s.goIdle.draws = s.draws := rfl

/-! ### `toXfer` -/

@[simp] theorem toXfer_phase (p : XferPhase) : (s.toXfer p).phase = .xfer p := rfl
@[simp] theorem toXfer_cfg (p : XferPhase) : (s.toXfer p).cfg = s.cfg := rfl
@[simp] theorem toXfer_units (p : XferPhase) : (s.toXfer p).units = s.units := rfl
@[simp] theorem toXfer_isOpen (p : XferPhase) : (s.toXfer p).isOpen = s.isOpen := rfl
@[simp] theorem toXfer_cmd (p : XferPhase) : (s.toXfer p).cmd = s.cmd := rfl
@[simp] theorem toXfer_w (p : XferPhase) : (s.toXfer p).w = s.w := rfl
@[simp] theorem toXfer_tr (p : XferPhase) : (s.toXfer p).tr = s.tr := rfl
@[simp] theorem toXfer_buf (p : XferPhase) : (s.toXfer p).buf = s.buf := rfl
@[simp] theorem toXfer_desync (p : XferPhase) : (s.toXfer p).desync = s.desync := rfl
@[simp] theorem toXfer_cancel (p : XferPhase) : (s.toXfer p).cancel = s.cancel := rfl
@[simp] theorem toXfer_rxq (p : XferPhase) : (s.toXfer p).rxq = s.rxq := rfl
@[simp] theorem toXfer_tx (p : XferPhase) : (s.toXfer p).tx = s.tx := rfl
@[simp] theorem toXfer_stores (p : XferPhase) : (s.toXfer p).stores = s.stores := rfl
@[simp] theorem toXfer_trace (p : XferPhase) : (s.toXfer p).trace = s.trace := rfl
@[simp] theorem toXfer_env (p : XferPhase) : (s.toXfer p).env = s.env := rfl
@[simp] theorem toXfer_draws (p : XferPhase) : (s.toXfer p).draws = s.draws := rfl

/-! ### `halt` -/

@[simp] theorem halt_phase (r : HaltReason) : (halt r s).phase = .halted r := rfl
@[simp] theorem halt_cfg (r : HaltReason) : (halt r s).cfg = s.cfg := rfl
@[simp] theorem halt_units (r : HaltReason) : (halt r s).units = s.units := rfl
@[simp] theorem halt_isOpen (r : HaltReason) : (halt r s).isOpen = s.isOpen := rfl
@[simp] theorem halt_cmd (r : HaltReason) : (halt r s).cmd = s.cmd := rfl
@[simp] theorem halt_w (r : HaltReason) : (halt r s).w = s.w := rfl
@[simp] theorem halt_tr (r : HaltReason) : (halt r s).tr = s.tr := rfl
@[simp] theorem halt_buf (r : HaltReason) : (halt r s).buf = s.buf := rfl
@[simp] theorem halt_desync (r : HaltReason) : (halt r s).desync = s.desync := rfl
@[simp] theorem halt_cancel (r : HaltReason) : (halt r s).cancel = s.cancel := rfl
@[simp] theorem halt_rxq (r : HaltReason) : (halt r s).rxq = s.rxq := rfl
@[simp] theorem halt_tx (r : HaltReason) : (halt r s).tx = s.tx := rfl
@[simp] theorem halt_stores (r : HaltReason) : (halt r s).stores = s.stores := rfl
@[simp] theorem halt_trace (r : HaltReason) : (halt r s).trace = s.trace ++ [.halt r] := rfl
@[simp] theorem halt_env (r : HaltReason) : (halt r s).env = s.env := rfl
@[simp] theorem halt_draws (r : HaltReason) : (halt r s).draws = s.draws := rfl

/-! ### `PerUnit` -/

@[simp] theorem PerUnit.get_set_same {α : Type} (p : PerUnit α) (u : UnitNo) (a : α) :
    (p.set u a).get u = a := by cases u <;> rfl

theorem PerUnit.get_set_other {α : Type} (p : PerUnit α) {u v : UnitNo} (h : v ≠ u) (a : α) :
    (p.set u a).get v = p.get v := by cases u <;> cases v <;> first | rfl | exact absurd rfl h

theorem PerUnit.get_set {α : Type} (p : PerUnit α) (u v : UnitNo) (a : α) :
    (p.set u a).get v = if v = u then a else p.get v := by
  split
  next h => subst h; exact PerUnit.get_set_same ..
  next h => exact PerUnit.get_set_other _ h _

@[simp] theorem PerUnit.get_map {α β : Type} (f : α → β) (p : PerUnit α) (u : UnitNo) :
    (p.map f).get u = f (p.get u) := by cases u <;> rfl

theorem PerUnit.ext_get {α : Type} {p q : PerUnit α} (h : ∀ u, p.get u = q.get u) : p = q := by
  cases p; cases q
  have h0 := h .u0; have h1 := h .u1; have h2 := h .u2; have h3 := h .u3
  simp only [PerUnit.get] at h0 h1 h2 h3
  simp [h0, h1, h2, h3]

/-! ### The environment's move -/

theorem headFail_of_noFailures {s : State} (h : NoFailures s) : s.failNow = none := by
  unfold State.failNow
  cases he : s.env with
  | nil => rfl
  | cons m ms => exact h m (by simp [he])

/-- The bytes of the first `k + 1` moves are those of the first and those of the `k` after it. -/
theorem arrive_succ (l : List EnvMove) (k : Nat) :
    (l.take (k + 1)).flatMap EnvMove.arrive =
      headArrive l ++ (l.tail.take k).flatMap EnvMove.arrive := by
  cases l <;> simp [headArrive]

theorem arrived_succ (s : State) (k : Nat) :
    s.arrived (k + 1) = headArrive s.env ++ s.advance.arrived k := arrive_succ s.env k

@[simp] theorem arrived_zero (s : State) : s.arrived 0 = [] := by simp [State.arrived]

/-- The bytes queued after one move of the environment. -/
theorem advance_rxq_arrived (s : State) : s.advance.rxq = s.rxq ++ s.arrived 1 := by
  simp [arrived_succ]

/-- The bytes queued after one move, with those that arrive later. -/
theorem advance_arrived (s : State) (k : Nat) :
    s.advance.rxq ++ s.advance.arrived k = s.rxq ++ s.arrived (k + 1) := by
  simp [arrived_succ]

theorem NoFailures.advance {s : State} (h : NoFailures s) : NoFailures s.advance :=
  fun m hm => h m (List.mem_of_mem_tail hm)

end Sys2Proof.Machine
end

