-- ==== Sys2Proof/Laws/Codec.lean ====
section
/-! SUPPORT. The shapes of what the codec makes: lengths, and which lists it refuses. -/

namespace Sys2Proof.Machine

@[simp] theorem length_encodeControlWord (w : Word12) : (encodeControlWord w).length = 2 := rfl

@[simp] theorem length_storeEncode (w : Word12) : (storeEncode w).length = 2 := rfl

@[simp] theorem length_unwirePair (a b : Byte) : (unwirePair a b).length = 2 := rfl

@[simp] theorem length_wirePair (a b : Byte) : (wirePair a b).length = 2 := rfl

@[simp] theorem length_setupBytes (tr : TransferRequest) : (setupBytes tr).length = 4 := rfl

@[simp] theorem encodeControlWords_nil : encodeControlWords [] = [] := rfl

@[simp] theorem encodeControlWords_cons (w : Word12) (ws : List Word12) :
    encodeControlWords (w :: ws) = encodeControlWord w ++ encodeControlWords ws := rfl

@[simp] theorem length_encodeControlWords (ws : List Word12) :
    (encodeControlWords ws).length = 2 * ws.length := by
  induction ws with
  | nil => rfl
  | cons w ws ih => simp [ih]; omega

/-- A list of even length is `[]` or a pair in front of a list of even length. -/
theorem even_list_cases {l : List Byte} (h : l.length % 2 = 0) :
    l = [] ∨ ∃ a b r, l = a :: b :: r ∧ r.length % 2 = 0 := by
  match l with
  | [] => exact .inl rfl
  | [_] => simp at h
  | a :: b :: r => exact .inr ⟨a, b, r, rfl, by simp at h; omega⟩

/-- `unwire_to_store` takes every list of even length, and keeps its length (R145). -/
theorem unwireToStore_even {bs : List Byte} (h : bs.length % 2 = 0) :
    ∃ out, unwireToStore bs = some out ∧ out.length = bs.length := by
  fun_induction unwireToStore bs with
  | case1 => exact ⟨[], rfl, rfl⟩
  | case2 => simp at h
  | case3 b0 b1 rest ih =>
    obtain ⟨out, ho, hl⟩ := ih (by simp at h; omega)
    exact ⟨unwirePair b0 b1 ++ out, by simp [ho], by simp [hl]; omega⟩

/-- `store_to_wire` takes every list of even length, and keeps its length (R146). -/
theorem storeToWire_even {ss : List Byte} (h : ss.length % 2 = 0) :
    ∃ out, storeToWire ss = some out ∧ out.length = ss.length := by
  fun_induction storeToWire ss with
  | case1 => exact ⟨[], rfl, rfl⟩
  | case2 => simp at h
  | case3 s0 s1 rest ih =>
    obtain ⟨out, ho, hl⟩ := ih (by simp at h; omega)
    exact ⟨wirePair s0 s1 ++ out, by simp [ho], by simp [hl]; omega⟩

@[simp] theorem decodeWireWords_cons (a b : Byte) (r : List Byte) :
    decodeWireWords (a :: b :: r) = decodeWireWord a b :: decodeWireWords r := rfl

/-- There are half as many words as bytes (R201). -/
theorem length_decodeWireWords (bs : List Byte) : (decodeWireWords bs).length = bs.length / 2 := by
  fun_induction decodeWireWords bs with
  | case1 b0 b1 rest ih => simp [ih]; omega
  | case2 bs h =>
    match bs with
    | [] => rfl
    | [_] => simp
    | a :: b :: r => exact absurd rfl (h a b r)

/-- There are half as many words as bytes (R276). -/
theorem length_storeDecodeWords (bs : List Byte) :
    (storeDecodeWords bs).length = bs.length / 2 := by
  fun_induction storeDecodeWords bs with
  | case1 b0 b1 rest ih => simp [ih]; omega
  | case2 bs h =>
    match bs with
    | [] => rfl
    | [_] => simp
    | a :: b :: r => exact absurd rfl (h a b r)

end Sys2Proof.Machine
end

