-- ==== Sys2Proof/Laws/Memory.lean ====
section
/-! SUPPORT. The laws of a store's bytes: a byte read after a write, and the one form of a memory,
which every operation keeps. -/

namespace Sys2Proof.Machine

/-! ### One byte -/

@[simp] theorem Memory.read_nil (a : Nat) : Memory.read [] a = 0#8 := rfl

@[simp] theorem Memory.read_cons (c : Host.Cell) (m : Memory) (a : Nat) :
    Memory.read (c :: m) a = if c.1 = a then c.2 else Memory.read m a := rfl

/-- A cell below every cell of the memory reads as zero. -/
theorem Memory.read_of_lt {m : Memory} {a : Nat} (h : ∀ c ∈ m, a < c.1) : m.read a = 0#8 := by
  induction m with
  | nil => rfl
  | cons c m ih =>
    have hc := h c (by simp)
    rw [Memory.read_cons, if_neg (by omega)]
    exact ih fun d hd => h d (by simp [hd])

/-- Reading after a write gives the byte written at its offset and the old byte elsewhere. -/
theorem Memory.read_write {m : Memory} (h : m.wf) (a x : Nat) (b : Byte) :
    (m.write a b).read x = if x = a then b else m.read x := by
  induction m with
  | nil =>
    unfold Memory.write
    by_cases hb : b = 0#8
    · simp [hb]
    · rw [if_neg hb, Memory.read_cons]
      by_cases hx : x = a
      · simp [hx]
      · rw [if_neg (fun hh => hx hh.symm), if_neg hx]
  | cons c m ih =>
    obtain ⟨hs, hz⟩ := h
    obtain ⟨hc, hs'⟩ := List.pairwise_cons.1 hs
    have ih := ih ⟨hs', fun d hd => hz d (by simp [hd])⟩
    unfold Memory.write
    by_cases h1 : a < c.1
    · rw [if_pos h1]
      have h0 : Memory.read (c :: m) a = 0#8 :=
        Memory.read_of_lt fun d hd => by
          rcases List.mem_cons.1 hd with rfl | hd
          · exact h1
          · exact Nat.lt_trans h1 (hc d hd)
      by_cases hb : b = 0#8
      · rw [if_pos hb]
        by_cases hx : x = a
        · subst hx; rw [if_pos rfl, h0, hb]
        · rw [if_neg hx]
      · rw [if_neg hb, Memory.read_cons]
        by_cases hx : x = a
        · simp [hx]
        · rw [if_neg (fun hh => hx hh.symm), if_neg hx]
    · rw [if_neg h1]
      by_cases h2 : a = c.1
      · rw [if_pos h2]
        have h0 : Memory.read m a = 0#8 := Memory.read_of_lt fun d hd => h2 ▸ hc d hd
        by_cases hb : b = 0#8
        · rw [if_pos hb]
          by_cases hx : x = a
          · subst hx; rw [if_pos rfl, h0, hb]
          · rw [if_neg hx, Memory.read_cons, if_neg (by omega)]
        · rw [if_neg hb, Memory.read_cons, Memory.read_cons]
          by_cases hx : x = a
          · simp [hx]
          · rw [if_neg (fun hh => hx hh.symm), if_neg hx, if_neg (by omega)]
      · rw [if_neg h2, Memory.read_cons, Memory.read_cons, ih]
        by_cases hx : x = a
        · subst hx; rw [if_pos rfl, if_neg (by omega), if_pos rfl]
        · simp [hx]

/-- The cells of a written memory are its old cells and the one written. -/
theorem Memory.mem_write {m : Memory} {a : Nat} {b : Byte} {d : Host.Cell}
    (h : d ∈ m.write a b) : d ∈ m ∨ (d = (a, b) ∧ b ≠ 0#8) := by
  induction m with
  | nil =>
    unfold Memory.write at h
    split at h
    · simp at h
    · next hb => simp at h; exact .inr ⟨h, hb⟩
  | cons c m ih =>
    unfold Memory.write at h
    split at h
    · split at h
      · exact .inl h
      · next hb =>
        rcases List.mem_cons.1 h with h | h
        · exact .inr ⟨h, hb⟩
        · exact .inl h
    · split at h
      · split at h
        · exact .inl (List.mem_cons_of_mem _ h)
        · next hb =>
          rcases List.mem_cons.1 h with h | h
          · exact .inr ⟨h, hb⟩
          · exact .inl (List.mem_cons_of_mem _ h)
      · rcases List.mem_cons.1 h with h | h
        · exact .inl (h ▸ by simp)
        · rcases ih h with h | h
          · exact .inl (List.mem_cons_of_mem _ h)
          · exact .inr h

/-- Storing a byte keeps the one form. -/
theorem Memory.wf_write {m : Memory} (h : m.wf) (a : Nat) (b : Byte) : (m.write a b).wf := by
  refine ⟨?_, fun d hd => ?_⟩
  · induction m with
    | nil => unfold Memory.write; split <;> simp
    | cons c m ih =>
      obtain ⟨hs, hz⟩ := h
      obtain ⟨hc, hs'⟩ := List.pairwise_cons.1 hs
      have ih := ih ⟨hs', fun d hd => hz d (by simp [hd])⟩
      unfold Memory.write
      split
      · split
        · exact hs
        · next h1 _ =>
          refine List.pairwise_cons.2 ⟨fun d hd => ?_, hs⟩
          rcases List.mem_cons.1 hd with rfl | hd
          · exact h1
          · exact Nat.lt_trans h1 (hc d hd)
      · split
        · next h2 =>
          split
          · exact hs'
          · exact List.pairwise_cons.2 ⟨fun d hd => by simpa [h2] using hc d hd, hs'⟩
        · next h1 h2 =>
          refine List.pairwise_cons.2 ⟨fun d hd => ?_, ih⟩
          rcases Memory.mem_write hd with hd | ⟨rfl, _⟩
          · exact hc d hd
          · show c.1 < a; omega
  · rcases Memory.mem_write hd with hd | ⟨rfl, hb⟩
    · exact h.2 d hd
    · exact hb

/-! ### Consecutive bytes -/

/-- Storing bytes keeps the one form. -/
theorem Memory.wf_writeBytes {m : Memory} (h : m.wf) (a : Nat) (bs : List Byte) :
    (m.writeBytes a bs).wf := by
  induction bs generalizing m a with
  | nil => exact h
  | cons b bs ih => exact ih (Memory.wf_write h a b) (a + 1)

/-- The cells of a memory with bytes stored lie among its old offsets and the stored ones. -/
theorem Memory.mem_writeBytes {m : Memory} {a : Nat} {bs : List Byte} {d : Host.Cell}
    (h : d ∈ m.writeBytes a bs) : d ∈ m ∨ (a ≤ d.1 ∧ d.1 < a + bs.length) := by
  induction bs generalizing m a with
  | nil => exact .inl h
  | cons b bs ih =>
    rcases ih h with h | h
    · rcases Memory.mem_write h with h | ⟨rfl, _⟩
      · exact .inl h
      · exact .inr ⟨Nat.le_refl _, by simp⟩
    · simp only [List.length_cons]; exact .inr ⟨by omega, by omega⟩

/-- Reading after bytes are stored: the stored byte inside their range, the old byte outside. -/
theorem Memory.read_writeBytes {m : Memory} (h : m.wf) (a x : Nat) (bs : List Byte) :
    (m.writeBytes a bs).read x =
      if a ≤ x ∧ x < a + bs.length then bs.getD (x - a) 0#8 else m.read x := by
  induction bs generalizing m a with
  | nil => rw [if_neg (by simp)]; rfl
  | cons b bs ih =>
    rw [Memory.writeBytes, ih (Memory.wf_write h a b), Memory.read_write h]
    by_cases hx : x = a
    · subst hx; simp
    · by_cases h1 : a + 1 ≤ x ∧ x < a + 1 + bs.length
      · have : x - a = (x - (a + 1)) + 1 := by omega
        rw [if_pos h1, if_pos (by simp; omega), this, List.getD_cons_succ]
      · rw [if_neg h1, if_neg hx, if_neg (by simp; omega)]

/-! ### A store -/

@[simp] theorem Store.writeBytes_nil (s : Store) (off : Nat) : s.writeBytes off [] = s := rfl

/-- Bytes stored keep the store's form. -/
theorem Store.wf_writeBytes {s : Store} (h : s.wf) (off : Nat) (bs : List Byte) :
    (s.writeBytes off bs).wf := by
  unfold Store.writeBytes
  split
  · exact h
  · refine ⟨Memory.wf_writeBytes h.1 _ _, fun c hc => ?_⟩
    rcases Memory.mem_writeBytes hc with hc | hc
    · have := h.2 c hc; simp only; omega
    · simp only; omega

/-- The length of a store after a write (R82). -/
theorem Store.len_writeBytes (s : Store) (off : Nat) {bs : List Byte} (h : bs ≠ []) :
    (s.writeBytes off bs).len = max s.len (off + bs.length) := by
  unfold Store.writeBytes; rw [if_neg h]

/-- An offset at or past the end of a sound store reads as zero in its cells. -/
theorem Store.read_past_end {s : Store} (h : s.wf) {a : Nat} (ha : s.len ≤ a) :
    s.cells.read a = 0#8 := by
  obtain ⟨_, hb⟩ := h
  generalize s.cells = m at hb
  induction m with
  | nil => rfl
  | cons c m ih =>
    have := hb c (by simp)
    rw [Memory.read_cons, if_neg (by omega)]
    exact ih fun d hd => hb d (by simp [hd])

/-- The byte at an offset after a write (R82): the stored byte, the old byte, or the zero of a gap
the write leaves before it. -/
theorem Store.byteAt_writeBytes {s : Store} (h : s.wf) (off : Nat) {bs : List Byte}
    (hbs : bs ≠ []) (a : Nat) :
    (s.writeBytes off bs).byteAt a =
      if off ≤ a ∧ a < off + bs.length then bs[a - off]?
      else if a < s.len then s.byteAt a
      else if a < off then some 0#8 else none := by
  unfold Store.byteAt
  rw [Store.len_writeBytes s off hbs]
  have hc : (s.writeBytes off bs).cells = s.cells.writeBytes off bs := by
    unfold Store.writeBytes; rw [if_neg hbs]
  rw [hc, Memory.read_writeBytes h.1]
  by_cases h1 : off ≤ a ∧ a < off + bs.length
  · have hlt : a - off < bs.length := by omega
    rw [if_pos h1, if_pos h1, if_pos (by omega)]
    simp [List.getD, hlt]
  · rw [if_neg h1, if_neg h1]
    by_cases h2 : a < s.len
    · rw [if_pos h2, if_pos h2, if_pos (by omega)]
    · rw [if_neg h2]
      by_cases h3 : a < off
      · have hpos : 0 < bs.length := List.length_pos_iff.2 hbs
        rw [if_pos h3, if_pos (by omega), Store.read_past_end h (by omega)]
      · rw [if_neg h3, if_neg (by omega)]

@[simp] theorem Store.length_readBytes (s : Store) (off n draws : Nat) :
    (s.readBytes off n draws).length = n := by simp [Store.readBytes]

end Sys2Proof.Machine
end

