-- ==== Sys2Proof/Laws/Ops.lean ====
section
/-! SUPPORT. What each shared operation can do, said once. `x.Holds P Q` says that the attempt `x`
either is done in a way that `P` allows or stops with an outcome that `Q` allows; one lemma for
each primitive turns it into the cases the environment may choose. -/

namespace Sys2Proof.Machine

/-- The attempt is done with a result and state in `P`, or stops with an outcome in `Q`. -/
def Attempt.Holds {α : Type} (x : Attempt α) (P : α → State → Prop)
    (Q : Host.Outcome State Fault Refusal → Prop) : Prop :=
  match x with
  | .ok a s => P a s
  | .stop o => Q o

variable {α β : Type} {P : α → State → Prop} {Q : Host.Outcome State Fault Refusal → Prop}

@[simp] theorem Attempt.holds_ok (a : α) (s : State) :
    (Attempt.ok a s).Holds P Q ↔ P a s := Iff.rfl

@[simp] theorem Attempt.holds_stop (o : Host.Outcome State Fault Refusal) :
    (Attempt.stop o : Attempt α).Holds P Q ↔ Q o := Iff.rfl

/-- One attempt after another: what holds of both is what the second makes hold of the first. -/
@[simp] theorem Attempt.holds_andThen (x : Attempt β) (f : β → State → Attempt α) :
    (x.andThen f).Holds P Q ↔ x.Holds (fun b s => (f b s).Holds P Q) Q := by
  cases x <;> rfl

/-- What holds of an attempt holds of its outcome. -/
theorem Attempt.holds_outcome {x : Attempt α}
    (h : x.Holds (fun _ s => Q (.next s)) Q) : Q x.outcome := by
  cases x <;> exact h

theorem Attempt.Holds.mono {x : Attempt α} {P' : α → State → Prop}
    {Q' : Host.Outcome State Fault Refusal → Prop} (h : x.Holds P Q)
    (hP : ∀ a s, P a s → P' a s) (hQ : ∀ o, Q o → Q' o) : x.Holds P' Q' := by
  cases x with
  | ok a s => exact hP a s h
  | stop o => exact hQ o h

@[simp] theorem Attempt.ok_andThen (a : β) (s : State) (f : β → State → Attempt α) :
    (Attempt.ok a s).andThen f = f a s := rfl

@[simp] theorem Attempt.stop_andThen (o : Host.Outcome State Fault Refusal)
    (f : β → State → Attempt α) : (Attempt.stop o).andThen f = .stop o := rfl

@[simp] theorem Attempt.ok_outcome (a : α) (s : State) : (Attempt.ok a s).outcome = .next s := rfl

@[simp] theorem Attempt.stop_outcome (o : Host.Outcome State Fault Refusal) :
    (Attempt.stop o : Attempt α).outcome = o := rfl

/-! ### The primitives, when the environment lets them succeed -/

section
variable {s : State}

theorem recv_ok {n : Nat} (hf : s.failNow = none) (hn : n ≤ s.advance.rxq.length) :
    recv n s = .ok (s.advance.rxq.take n)
      ((s.advance.withRxq (s.advance.rxq.drop n)).record (.recv (s.advance.rxq.take n))) := by
  unfold recv; rw [hf]; simp only; rw [if_neg (by omega)]

/-- R31: too few bytes queued leave the engine waiting, with nothing taken. -/
theorem recv_waits {n : Nat} (hf : s.failNow = none) (hn : s.advance.rxq.length < n) :
    recv n s = .stop (.next s.advance) := by
  unfold recv; rw [hf]; simp only; rw [if_pos hn]

theorem send_ok (bs : List Byte) (hf : s.failNow = none) :
    send bs s = .ok () ((s.advance.withTx (s.tx ++ bs)).record (.send bs)) := by
  unfold send; rw [hf]; rfl

theorem drain_ok (hf : s.failNow = none) :
    drain s = .ok s.advance.rxq
      ((s.advance.withRxq []).record (.drain s.advance.rxq)) := by
  unfold drain; rw [hf]

theorem storeRead_ok {u : UnitNo} (off n : Nat) (ho : s.isOpen.get u = true)
    (hf : s.failNow = none) :
    storeRead u off n s = .ok ((s.stores.get u).readBytes off n s.draws)
      ((s.advance.withDraws (s.draws + n)).record
        (.storeRead u off n ((s.stores.get u).readBytes off n s.draws))) := by
  unfold storeRead; rw [if_pos ho, hf]; rfl

theorem storeWrite_ok {u : UnitNo} (off : Nat) (bs : List Byte) (ho : s.isOpen.get u = true)
    (hf : s.failNow = none) :
    storeWrite u off bs s =
      .ok () ((s.advance.writeStore u off bs).record (.storeWrite u off bs)) := by
  unfold storeWrite; rw [if_pos ho, hf]

theorem storeFlush_ok {u : UnitNo} (ho : s.isOpen.get u = true) (hf : s.failNow = none) :
    storeFlush u s = .ok () (s.advance.record (.storeFlush u)) := by
  unfold storeFlush; rw [if_pos ho, hf]

theorem storeClose_ok {u : UnitNo} (ho : s.isOpen.get u = true) (hf : s.failNow = none) :
    storeClose u s = .ok ()
      ((s.advance.withOpen (s.isOpen.set u false)).record (.storeClose u)) := by
  unfold storeClose; rw [if_pos ho, hf]; rfl

end

/-! ### The primitives, whatever the environment chooses -/

section
variable (s : State)

theorem recv_holds (n : Nat) {P : List Byte → State → Prop} :
    (recv n s).Holds P Q ↔
      match s.failNow with
      | some k =>
        Q (.next (raiseFatal .recv none (s.advance.withRxq (s.advance.rxq.drop k))))
      | none =>
        if s.advance.rxq.length < n then Q (.next s.advance)
        else P (s.advance.rxq.take n)
          ((s.advance.withRxq (s.advance.rxq.drop n)).record (.recv (s.advance.rxq.take n))) := by
  unfold recv
  cases s.failNow with
  | some k => rfl
  | none => simp only; split <;> rfl

theorem send_holds (bs : List Byte) {P : Unit → State → Prop} :
    (send bs s).Holds P Q ↔
      match s.failNow with
      | some k => Q (.next (raiseFatal .send none (s.advance.withTx (s.tx ++ bs.take k))))
      | none => P () ((s.advance.withTx (s.tx ++ bs)).record (.send bs)) := by
  unfold send; cases s.failNow <;> rfl

theorem drain_holds {P : List Byte → State → Prop} :
    (drain s).Holds P Q ↔
      match s.failNow with
      | some k =>
        Q (.next (raiseFatal .drain none (s.advance.withRxq (s.advance.rxq.drop k))))
      | none =>
        P s.advance.rxq ((s.advance.withRxq []).record (.drain s.advance.rxq)) := by
  unfold drain; cases s.failNow <;> rfl

theorem storeRead_holds (u : UnitNo) (off n : Nat) {P : List Byte → State → Prop} :
    (storeRead u off n s).Holds P Q ↔
      if s.isOpen.get u then
        match s.failNow with
        | some _ => Q (.next (raiseFatal .storeRead (some u) s.advance))
        | none => P ((s.stores.get u).readBytes off n s.draws)
            ((s.advance.withDraws (s.draws + n)).record
              (.storeRead u off n ((s.stores.get u).readBytes off n s.draws)))
      else Q (.fault (.storeNotOpen u)) := by
  unfold storeRead; split
  · cases s.failNow <;> rfl
  · rfl

theorem storeWrite_holds (u : UnitNo) (off : Nat) (bs : List Byte) {P : Unit → State → Prop} :
    (storeWrite u off bs s).Holds P Q ↔
      if s.isOpen.get u then
        match s.failNow with
        | some k =>
          Q (.next (raiseFatal .storeWrite (some u) (s.advance.writeStore u off (bs.take k))))
        | none => P () ((s.advance.writeStore u off bs).record (.storeWrite u off bs))
      else Q (.fault (.storeNotOpen u)) := by
  unfold storeWrite; split
  · cases s.failNow <;> rfl
  · rfl

theorem storeFlush_holds (u : UnitNo) {P : Unit → State → Prop} :
    (storeFlush u s).Holds P Q ↔
      if s.isOpen.get u then
        match s.failNow with
        | some _ => Q (.next (raiseFatal .storeFlush (some u) s.advance))
        | none => P () (s.advance.record (.storeFlush u))
      else Q (.fault (.storeNotOpen u)) := by
  unfold storeFlush; split
  · cases s.failNow <;> rfl
  · rfl

theorem storeClose_holds (u : UnitNo) {P : Unit → State → Prop} :
    (storeClose u s).Holds P Q ↔
      if s.isOpen.get u then
        match s.failNow with
        | some _ => Q (.next (raiseFatal .storeClose (some u) s.advance))
        | none => P ()
            ((s.advance.withOpen (s.isOpen.set u false)).record (.storeClose u))
      else Q (.fault (.storeNotOpen u)) := by
  unfold storeClose; split
  · cases s.failNow <;> rfl
  · rfl

end

end Sys2Proof.Machine
end

