-- ==== Sys2Proof/Laws/Fetch.lean ====
section
/-! SUPPORT. What the engine does in `IDLE`: the four cases of taking a command, and the step. -/

namespace Sys2Proof.Machine

variable {s : State}

/-- R171: a set cancel request is taken first. -/
theorem fetchCommand_cancel (hc : s.advance.cancel = true) :
    fetchCommand s = .stop (cancelShutdown s.advance).outcome := by
  unfold fetchCommand; rw [if_pos hc]

/-- R170: with nothing to take, the engine waits. -/
theorem fetchCommand_waits (hc : s.advance.cancel = false) (hq : s.advance.rxq = []) :
    fetchCommand s = .stop (.next s.advance) := by
  unfold fetchCommand; rw [if_neg (by rw [hc]; decide), hq]

/-- R170: one byte is taken into `CMD`. -/
theorem fetchCommand_ok {b : Byte} {rest : List Byte} (hc : s.advance.cancel = false)
    (hq : s.advance.rxq = b :: rest) (hf : s.failNow = none) :
    fetchCommand s =
      .ok b (((s.advance.withRxq rest).withCmd b).record (.recv [b])) := by
  unfold fetchCommand; rw [if_neg (by rw [hc]; decide), hq]; simp only [hf]

/-- R311: the `Recv` of the command byte fails. -/
theorem fetchCommand_fails {b : Byte} {rest : List Byte} {k : Nat} (hc : s.advance.cancel = false)
    (hq : s.advance.rxq = b :: rest) (hf : s.failNow = some k) :
    fetchCommand s =
      .stop (.next (raiseFatal .recv none (s.advance.withRxq (s.advance.rxq.drop k)))) := by
  unfold fetchCommand; rw [if_neg (by rw [hc]; decide)]; rw [hq]; simp only [hf]

/-- All that taking a command can come to. -/
theorem fetchCommand_cases (s : State) :
    (s.advance.cancel = true ∧ fetchCommand s = .stop (cancelShutdown s.advance).outcome) ∨
    (s.advance.cancel = false ∧ s.advance.rxq = [] ∧ fetchCommand s = .stop (.next s.advance)) ∨
    (∃ b rest k, s.advance.cancel = false ∧ s.advance.rxq = b :: rest ∧ s.failNow = some k ∧
      fetchCommand s =
        .stop (.next (raiseFatal .recv none (s.advance.withRxq (s.advance.rxq.drop k))))) ∨
    (∃ b rest, s.advance.cancel = false ∧ s.advance.rxq = b :: rest ∧ s.failNow = none ∧
      fetchCommand s =
        .ok b (((s.advance.withRxq rest).withCmd b).record (.recv [b]))) := by
  cases hc : s.advance.cancel with
  | true => exact .inl ⟨rfl, fetchCommand_cancel hc⟩
  | false =>
    cases hq : s.advance.rxq with
    | nil => exact .inr (.inl ⟨rfl, rfl, fetchCommand_waits hc hq⟩)
    | cons b rest =>
      cases hf : s.failNow with
      | some k => exact .inr (.inr (.inl ⟨b, rest, k, rfl, rfl, rfl, hq ▸ fetchCommand_fails hc hq hf⟩))
      | none => exact .inr (.inr (.inr ⟨b, rest, rfl, rfl, rfl, fetchCommand_ok hc hq hf⟩))

theorem step_idle_ok {b : Byte} {s' : State} (h : s.phase = .idle)
    (hf : fetchCommand s = .ok b s') : step s = exec (decodeCommand b) s' := by
  simp only [step, h, hf]

theorem step_idle_stop {o : Host.Outcome State Fault Refusal} (h : s.phase = .idle)
    (hf : fetchCommand s = .stop o) : step s = o := by
  simp only [step, h, hf]

theorem step_xfer {p : XferPhase} (h : s.phase = .xfer p) :
    step s = exec (decodeCommand s.cmd) s := by
  simp only [step, h]

end Sys2Proof.Machine
end

