-- ==== Sys2Proof/Laws/PerInstr.lean ====
section
/-! SUPPORT. Laws of every command, one lemma for each constructor of `Instr`. -/

namespace Sys2Proof.Laws

/-- What is encoded is decoded (R102, R125): a well-formed command, in front of any bytes, is read
back as itself and leaves those bytes. -/
def DecodeEncode.Statement (i : Instr) : Prop :=
  i.wf = true → ∀ rest : List Byte, decode (encode i ++ rest) = .ok (i, rest)

theorem DecodeEncode.helpboot : DecodeEncode.Statement .helpboot := fun _ _ => rfl
theorem DecodeEncode.bootsect : DecodeEncode.Statement .bootsect := fun _ _ => rfl
theorem DecodeEncode.xferA : DecodeEncode.Statement .xferA := fun _ _ => rfl
theorem DecodeEncode.xferB : DecodeEncode.Statement .xferB := fun _ _ => rfl
theorem DecodeEncode.xferC : DecodeEncode.Statement .xferC := fun _ _ => rfl
theorem DecodeEncode.xferD : DecodeEncode.Statement .xferD := fun _ _ => rfl
theorem DecodeEncode.xferE : DecodeEncode.Statement .xferE := fun _ _ => rfl
theorem DecodeEncode.xferF : DecodeEncode.Statement .xferF := fun _ _ => rfl
theorem DecodeEncode.xferG : DecodeEncode.Statement .xferG := fun _ _ => rfl
theorem DecodeEncode.xferH : DecodeEncode.Statement .xferH := fun _ _ => rfl
theorem DecodeEncode.quit : DecodeEncode.Statement .quit := fun _ _ => rfl

/-- A byte that the opcode map does not name decodes as `ignored` (R185). -/
theorem decodeCommand_unnamed (b : Byte) (h : isNamedCommand b = false) :
    decodeCommand b = .ignored b := by
  revert b; decide +kernel

theorem DecodeEncode.ignored (b : Byte) : DecodeEncode.Statement (.ignored b) := fun h rest => by
  have hb : isNamedCommand b = false := by simpa [Instr.wf] using h
  show Except.ok (decodeCommand b, rest) = _
  rw [decodeCommand_unnamed b hb]

end Sys2Proof.Laws
end

