-- ==== Sys2Proof/Laws/Reset.lean ====
section
/-! SUPPORT. The launch configuration is one of this hardware, and the reset sequence makes
`State.reset` of the launch state. -/

namespace Sys2Proof.Machine

/-- The table of `help_byte` at launch has 256 different bytes (R273). -/
theorem launch_helpBytesInjective : Config.launch.helpBytesInjective := by
  refine ⟨by simp [Config.launch], ?_⟩
  show ((List.range 256).map (BitVec.ofNat 8)).Nodup
  refine List.Nodup.map_on (fun a ha b hb h => ?_) List.nodup_range
  have ha := List.mem_range.1 ha
  have hb := List.mem_range.1 hb
  have := congrArg BitVec.toNat h
  simp only [BitVec.toNat_ofNat] at this
  omega

theorem launch_wf : Config.launch.wf :=
  ⟨by decide, by decide, by decide, by decide, launch_helpBytesInjective⟩

/-- `State.reset` is what the step in `RESET` makes of the launch state (R341, R52). -/
theorem launch_resets : step State.launch = .next State.reset := by
  show resetSequence State.launch = _
  unfold resetSequence
  rw [if_pos (show State.launch.cfg.wf from launch_wf),
    if_pos (show State.launch.units.u0.inUse = true from rfl)]
  rfl

end Sys2Proof.Machine
end

