-- ==== Sys2Proof/Laws/Shutdown.lean ====
section
/-! SUPPORT. The orderly close of the stores, when the environment makes nothing fail. -/

namespace Sys2Proof.Machine

/-- `t` is `s` but for what a shutdown may change: the open stores, the trace, and what the
environment's moves bring. -/
def OnlyClosed (s t : State) : Prop :=
  t = { s with isOpen := t.isOpen, trace := t.trace, rxq := t.rxq, cancel := t.cancel, env := t.env }

theorem OnlyClosed.refl (s : State) : OnlyClosed s s := rfl

theorem OnlyClosed.trans {s t r : State} (h : OnlyClosed s t) (h' : OnlyClosed t r) :
    OnlyClosed s r := by
  unfold OnlyClosed at *; rw [h', h]

/-- One unit's turn at shutdown (R184). -/
theorem closeUnit_ok (u : UnitNo) (s : State) (h : NoFailures s) :
    ∃ t, closeUnit u s = .ok () t ∧ NoFailures t ∧ t.isOpen = s.isOpen.set u false ∧
      t.trace = s.trace ++
        (if s.isOpen.get u then [.storeFlush u, .storeClose u] else []) ∧
      s.rxq <+: t.rxq ∧ (s.cancel = true → t.cancel = true) ∧ OnlyClosed s t := by
  unfold closeUnit
  by_cases ho : s.isOpen.get u = true
  · rw [if_pos ho, storeFlush_ok ho (headFail_of_noFailures h), Attempt.ok_andThen,
      storeClose_ok (s := s.advance.record (.storeFlush u)) (by simpa using ho)
        (headFail_of_noFailures (s := s.advance.record (.storeFlush u)) h.advance)]
    exact ⟨_, rfl, h.advance.advance, by simp, by simp [ho], by simp,
      fun hc => by simp [hc], rfl⟩
  · rw [if_neg ho]
    refine ⟨s, rfl, h, PerUnit.ext_get fun v => ?_, by simp [ho], by simp, id, rfl⟩
    rw [PerUnit.get_set]
    split
    next hv => subst hv; simpa using ho
    next => rfl

/-- Every unit's turn, in order (R184, decision D27). -/
theorem closeAll_ok (s : State) (h : NoFailures s) :
    ∃ t, closeAll s = .ok () t ∧ NoFailures t ∧ (∀ u, t.isOpen.get u = false) ∧
      t.trace = s.trace ++ closeEvents s.isOpen ∧
      s.rxq <+: t.rxq ∧ (s.cancel = true → t.cancel = true) ∧ OnlyClosed s t := by
  obtain ⟨t0, e0, n0, o0, r0, q0, c0, x0⟩ := closeUnit_ok .u0 s h
  obtain ⟨t1, e1, n1, o1, r1, q1, c1, x1⟩ := closeUnit_ok .u1 t0 n0
  obtain ⟨t2, e2, n2, o2, r2, q2, c2, x2⟩ := closeUnit_ok .u2 t1 n1
  obtain ⟨t3, e3, n3, o3, r3, q3, c3, x3⟩ := closeUnit_ok .u3 t2 n2
  refine ⟨t3, by simp [closeAll, e0, e1, e2, e3], n3, fun u => ?_, ?_, ?_, ?_, ?_⟩
  · rw [o3, o2, o1, o0]; cases u <;> rfl
  · rw [r3, r2, r1, r0, o2, o1, o0]
    simp [closeEvents, List.append_assoc, PerUnit.get_set]
  · exact q0.trans (q1.trans (q2.trans q3))
  · exact fun hc => c3 (c2 (c1 (c0 hc)))
  · exact x0.trans (x1.trans (x2.trans x3))

end Sys2Proof.Machine
end

