-- ==== Sys2Proof/Laws/Transfer.lean ====
section
/-! SUPPORT. How the transfer procedure runs: one lemma that names it for all eight letters, and
one for each move of `xferRun`. -/

namespace Sys2Proof.Machine

/-- The eight letters run one procedure, each on its own command byte (R186 to R193). -/
theorem exec_transfer {i : Instr} (h : i.isTransfer = true) (s : State) :
    exec i s = transfer (encodeCommand i) s := by
  cases i <;> first | rfl | simp [Instr.isTransfer] at h

/-- One more primitive of a transfer that is under way. -/
theorem xferRun_xfer {b : Byte} {n : Nat} {s : State} {p : XferPhase} (h : s.phase = .xfer p) :
    xferRun b (n + 1) s = (xferStep b p s).andThen fun _ s => xferRun b n s := by
  rw [xferRun, h]

/-- A procedure that has ended stays ended. -/
theorem xferRun_idle {b : Byte} {n : Nat} {s : State} (h : s.phase = .idle) :
    xferRun b n s = .ok () s := by
  cases n with
  | zero => rfl
  | succ n => rw [xferRun, h]

theorem enterXfer_idle {s : State} (h : s.phase = .idle) : enterXfer s = s.toXfer .params := by
  unfold enterXfer; rw [h]

/-- A transfer is taken up at its parameter block whether it begins there or waited there (R31). -/
theorem enterXfer_atParams {s : State} (h : s.AtParams) : enterXfer s = s.toXfer .params := by
  rcases h with h | h
  · exact enterXfer_idle h
  · cases s; subst h; rfl

theorem enterXfer_xfer {s : State} {p : XferPhase} (h : s.phase = .xfer p) : enterXfer s = s := by
  unfold enterXfer; rw [h]

/-! ### The pad -/

@[simp] theorem padBuffer_cfg (s : State) : (padBuffer s).cfg = s.cfg := by
  unfold padBuffer; split <;> rfl
@[simp] theorem padBuffer_units (s : State) : (padBuffer s).units = s.units := by
  unfold padBuffer; split <;> rfl
@[simp] theorem padBuffer_isOpen (s : State) : (padBuffer s).isOpen = s.isOpen := by
  unfold padBuffer; split <;> rfl
@[simp] theorem padBuffer_cmd (s : State) : (padBuffer s).cmd = s.cmd := by
  unfold padBuffer; split <;> rfl
@[simp] theorem padBuffer_w (s : State) : (padBuffer s).w = s.w := by
  unfold padBuffer; split <;> rfl
@[simp] theorem padBuffer_desync (s : State) : (padBuffer s).desync = s.desync := by
  unfold padBuffer; split <;> rfl
@[simp] theorem padBuffer_cancel (s : State) : (padBuffer s).cancel = s.cancel := by
  unfold padBuffer; split <;> rfl
@[simp] theorem padBuffer_rxq (s : State) : (padBuffer s).rxq = s.rxq := by
  unfold padBuffer; split <;> rfl
@[simp] theorem padBuffer_tx (s : State) : (padBuffer s).tx = s.tx := by
  unfold padBuffer; split <;> rfl
@[simp] theorem padBuffer_stores (s : State) : (padBuffer s).stores = s.stores := by
  unfold padBuffer; split <;> rfl
@[simp] theorem padBuffer_trace (s : State) : (padBuffer s).trace = s.trace := by
  unfold padBuffer; split <;> rfl
@[simp] theorem padBuffer_env (s : State) : (padBuffer s).env = s.env := by
  unfold padBuffer; split <;> rfl
@[simp] theorem padBuffer_draws (s : State) : (padBuffer s).draws = s.draws := by
  unfold padBuffer; split <;> rfl
@[simp] theorem padBuffer_phase (s : State) : (padBuffer s).phase = s.phase := by
  unfold padBuffer; split <;> rfl

/-- The pad appends one page of zeros (R253). -/
theorem padBuffer_buf (s : State) : (padBuffer s).buf = paddedData s.tr s.buf := by
  unfold padBuffer paddedData; split <;> rfl

/-- The pad counts one page more (R253), and leaves the rest of the request alone. -/
theorem padBuffer_tr (s : State) : (padBuffer s).tr = s.tr.padded := by
  unfold padBuffer TransferRequest.padded; split <;> rfl

@[simp] theorem padded_unit (tr : TransferRequest) : tr.padded.unit = tr.unit := by
  unfold TransferRequest.padded; split <;> rfl
@[simp] theorem padded_dir (tr : TransferRequest) : tr.padded.dir = tr.dir := by
  unfold TransferRequest.padded; split <;> rfl
@[simp] theorem padded_startBlock (tr : TransferRequest) :
    tr.padded.startBlock = tr.startBlock := by
  unfold TransferRequest.padded; split <;> rfl
@[simp] theorem padded_pageCount (tr : TransferRequest) : tr.padded.pageCount = tr.pageCount := by
  unfold TransferRequest.padded; split <;> rfl
@[simp] theorem transferOffset_padded (tr : TransferRequest) :
    transferOffset tr.padded = transferOffset tr := by
  unfold TransferRequest.padded; split <;> rfl

/-! ### What an accepted request is -/

/-- The checks let an accepted request through (R217 to R221). -/
theorem Accepted.permitted {dir : Direction} {s : State} (h : Accepted dir s) : Permitted s := by
  obtain ⟨hr, hok, -⟩ := h
  have key : ∀ p : ParamBlock, okFlag (runChecks s.cfg (s.units.get (unitOf s.cmd)) p) = true →
      (s.units.get (unitOf s.cmd)).inUse = true ∧
      protectionViolation (blockDirection p) (s.units.get (unitOf s.cmd)) = false ∧
      blockStart p + ceil2 (blockPages p) ≤ s.cfg.numberOfBlocks := by
    intro p
    simp only [okFlag, runChecks, unitUnavailable, boundOverrun]
    simp only [Bool.not_eq_true', Bool.or_eq_false_iff, decide_eq_false_iff_not, Nat.not_lt,
      Bool.not_eq_false']
    exact fun h => ⟨h.1.1.1, h.1.1.2, h.1.2⟩
  rw [hr] at hok
  unfold Permitted
  rw [hr]
  exact key _ hok

/-- A resolved request has two bytes for each word and 128 words for each page, and a write of an
odd page count has a half block (R224). -/
theorem resolved_sizes {s : State} (h : s.tr = s.resolved) :
    s.tr.totalWords = 128 * s.tr.pageCount ∧ s.tr.totalBytes = 256 * s.tr.pageCount ∧
      s.tr.halfBlock = (s.tr.dir == .write && s.tr.pageCount % 2 == 1) := by
  rw [h]
  have bytes : ∀ n, 2 * (n * 128) = 256 * n := by omega
  exact ⟨Nat.mul_comm _ _, bytes _, rfl⟩

/-- The padded data of a write is a whole number of blocks (R257). -/
theorem Accepted.length_paddedData {s : State} (h : Accepted .write s) {data : List Byte}
    (hd : data.length = s.tr.totalBytes) :
    (paddedData s.tr data).length = 512 * ceil2 s.tr.pageCount := by
  obtain ⟨-, hb, hh⟩ := resolved_sizes h.1
  rw [h.2.2, beq_self_eq_true, Bool.true_and] at hh
  unfold paddedData
  split
  next hp =>
    rw [hh, beq_iff_eq] at hp
    simp only [List.length_append, List.length_replicate, Config.pageBytes, Config.pageSize,
      Config.bytesPerWord, ceil2]
    omega
  next hp =>
    rw [hh, beq_iff_eq] at hp
    simp only [ceil2]
    omega

/-! ### The branches of a transfer -/

/-- R176: a rejected transfer ends after its acknowledgment. -/
theorem afterAck_rejected {s : State} (h : s.tr.ok = false) : afterAck s = s.goIdle := by
  unfold afterAck; rw [h]; rfl

/-- R176: an accepted read goes on with the fetch. -/
theorem afterAck_read {s : State} (h : s.tr.ok = true) (hd : s.tr.dir = .read) :
    afterAck s = (s.withDesync false).toXfer .rdFetch := by
  unfold afterAck; rw [h, hd]; rfl

/-- R176: an accepted write goes on with the data. -/
theorem afterAck_write {s : State} (h : s.tr.ok = true) (hd : s.tr.dir = .write) :
    afterAck s = (s.withDesync false).toXfer .wrRecv := by
  unfold afterAck; rw [h, hd]; rfl

/-- R255: nothing is committed after a desync. -/
theorem afterWrAck_desync {s : State} (h : s.desync = true) : afterWrAck s = s.goIdle := by
  unfold afterWrAck; rw [h]; rfl

/-- R255: without a desync the write goes on with the commit. -/
theorem afterWrAck_commit {s : State} (h : s.desync = false) :
    afterWrAck s = s.toXfer .wrCommit := by
  unfold afterWrAck; rw [h]; rfl

/-- What holds after any primitive of a transfer, and of every stop, holds of the whole run: the
induction over a run, done once. -/
theorem xferRun_holds {b : Byte} {I : State → Prop} {Q : Host.Outcome State Fault Refusal → Prop}
    (hstep : ∀ p s, s.phase = .xfer p → I s → (xferStep b p s).Holds (fun _ t => I t) Q) :
    ∀ n s, I s → (xferRun b n s).Holds (fun _ t => I t) Q := by
  intro n
  induction n with
  | zero => intro s hs; exact hs
  | succ n ih =>
    intro s hs
    rw [xferRun]
    split
    next p hp =>
      rw [Attempt.holds_andThen]
      exact (hstep p s hp hs).mono (fun _ t ht => ih t ht) (fun _ h => h)
    next => exact hs

end Sys2Proof.Machine
end

