-- ==== Sys2Proof/Tests/Slice0.lean ====
section
/-! SUPPORT. The model's own tests: the checks of WellFormed refuse ill-formed terms, the words of the
spec decode, each command does what a vector of 95_test_vectors.md says, and every statement with
hypotheses has a state that meets them. -/

namespace Sys2Proof.Tests

set_option Elab.async false

open Sys2Proof Sys2Proof.Machine

/-! ### A small machine: configuration S of 95_test_vectors.md, with values for the OPEN words -/

def cfgS (mode : Mode) : Cfg := { Config.launch with
  mode := mode
  numberOfBlocks := 64
  ackWritePending := 0o5000#12
  bProtect := 0o0001#12
  bBound := 0o0002#12
  bResident := 0o0004#12
  bDesync := 0o0010#12
  patchAddrVal := 0o0200#12
  patchWcVal := 0o7600#12 }

/-- A store of 64 blocks whose first words are 06201 and 07777, and whose other words are 0. -/
def storeS : Store := ⟨32768, [(0, 0x81#8), (1, 0x0C#8), (2, 0xFF#8), (3, 0x0F#8)]⟩

/-- The idle engine in configuration S with bytes queued. -/
def ready (mode : Mode) (queue : List Byte) : State := { State.reset with
  cfg := cfgS mode
  stores := ⟨storeS, .empty, .empty, .empty⟩
  rxq := queue }

/-- The next state, for tests that read a field of it. -/
def next? : Host.Outcome State Fault Refusal → Option State
  | .next t => some t
  | _ => none

/-- A field of the next state. -/
def after {α : Type} (o : Host.Outcome State Fault Refusal) (f : State → α) : Option α :=
  (next? o).map f

/-! ### WellFormed refuses -/

theorem test_wf_refuses_named_ignored : (Instr.ignored 0x41#8).wf = false := by decide
theorem test_wf_refuses_quit_as_ignored : (Instr.ignored 0x51#8).wf = false := by decide
theorem test_wf_refuses_no_pages : (ParamBlock.page .read 0 0 0 0).wf = false := by decide
theorem test_wf_refuses_33_pages : (ParamBlock.page .read 33 0 0 0).wf = false := by decide
theorem test_wf_refuses_other_mode :
    (ParamBlock.page .read 1 0 0 0).fits .fixed = false := by decide
theorem test_wf_refuses_no_blocks : ¬({ cfgS .page with numberOfBlocks := 0 } : Cfg).wf :=
  fun h => absurd h.1.1 (by decide)
theorem test_wf_refuses_4096_blocks : ¬({ cfgS .page with numberOfBlocks := 4096 } : Cfg).wf :=
  fun h => absurd h.1.2 (by decide)
theorem test_wf_refuses_short_prefix : ¬({ cfgS .page with bootPrefixLen := 127 } : Cfg).wf :=
  fun h => absurd h.2.1.1 (by decide)
theorem test_wf_refuses_long_prefix : ¬({ cfgS .page with bootPrefixLen := 257 } : Cfg).wf :=
  fun h => absurd h.2.1.2 (by decide)
theorem test_wf_refuses_patch_past_prefix :
    ¬({ cfgS .page with patchWcOff := 128 } : Cfg).wf :=
  fun h => absurd h.2.2.1.2.1 (by decide)
theorem test_wf_refuses_equal_patches : ¬({ cfgS .page with patchCdfOff := 1 } : Cfg).wf :=
  fun h => absurd h.2.2.2.1.2.2 (by decide)
theorem test_wf_refuses_short_help_table : ¬({ cfgS .page with helpBytes := [0#8] } : Cfg).wf :=
  fun h => absurd h.2.2.2.2.1 (by decide)

theorem cfgS_wf (mode : Mode) : (cfgS mode).wf :=
  ⟨⟨show 1 ≤ 64 by decide, show 64 ≤ 4095 by decide⟩, launch_wf.2.1, launch_wf.2.2.1,
    launch_wf.2.2.2.1, launch_helpBytesInjective⟩

/-! ### Decoding: words written out from 30_encoding.md -/

theorem test_decode_helpboot : decode [0b00000000#8] = .ok (.helpboot, []) := by decide
theorem test_decode_bootsect : decode [0b01000000#8] = .ok (.bootsect, []) := by decide
theorem test_decode_xferA : decode [0b01000001#8] = .ok (.xferA, []) := by decide
theorem test_decode_xferB : decode [0b01000010#8] = .ok (.xferB, []) := by decide
theorem test_decode_xferC : decode [0b01000011#8] = .ok (.xferC, []) := by decide
theorem test_decode_xferD : decode [0b01000100#8] = .ok (.xferD, []) := by decide
theorem test_decode_xferE : decode [0b01000101#8] = .ok (.xferE, []) := by decide
theorem test_decode_xferF : decode [0b01000110#8] = .ok (.xferF, []) := by decide
theorem test_decode_xferG : decode [0b01000111#8] = .ok (.xferG, []) := by decide
theorem test_decode_xferH : decode [0b01001000#8] = .ok (.xferH, []) := by decide
theorem test_decode_quit : decode [0b01010001#8] = .ok (.quit, []) := by decide
/-- D8: bit 7 is not masked. -/
theorem test_decode_ignored : decode [0b11000001#8, 0#8] = .ok (.ignored 0xC1#8, [0#8]) := by
  decide

/-- V6 with field 1: bit 11 write, bits 10:6 one page, bits 5:3 field 1; then 00400 and 00002. -/
theorem test_decode_page_block :
    decodeTransfer .page [0x44#8, 0o010#8, 0o041#8, 0o000#8, 0o004#8, 0o002#8, 0o000#8, 0x40#8] =
      .ok (.xferD, .page .write 1 1 0o400#12 0o2#12, [0x40#8]) := by decide
/-- Conflict C1: W0 03770 is 31 pages, field 7. -/
theorem test_decode_31_pages : decodePage 0o3770#12 0 0 = .page .read 31 7 0 0 := by decide
/-- R213: page field 0 is 32 pages. -/
theorem test_decode_32_pages : decodePage 0o0010#12 0 0 = .page .read 32 1 0 0 := by decide
/-- V30. -/
theorem test_decode_fixed_block :
    decodeTransfer .fixed [0x41#8, 0o001#8, 0#8, 0o043#8, 0#8, 0o012#8, 0#8, 0o001#8, 0#8] =
      .ok (.xferA, .fixed .read 1 2 3 0o12#12 1#12, []) := by decide
/-- V37: bits 10:3 of W0 and 11:7 of W1 are ignored. -/
theorem test_decode_fixed_ignored_bits :
    decodeFixed 0o3770#12 0o7760#12 0 1 = .fixed .read 0 7 0 0 1 := by decide
theorem test_decode_short_block : decodeTransfer .page [0x41#8, 0#8] = .error .shortParamBlock := by
  decide
theorem test_decode_no_block : decodeTransfer .page [0x51#8, 0#8] = .error .noParamBlock := by
  decide
theorem test_decode_nothing : decode [] = .error .noCommandByte := by decide

/-! ### The codec (section 2.1 and 2.2 of the vectors) -/

theorem test_wire_06201 : encodeControlWord 0o6201#12 = [0o001#8, 0o062#8] := by decide
theorem test_store_02525 : storeEncode 0o2525#12 = [0x55#8, 0x05#8] := by decide
theorem test_unwire_two_words : unwireToStore [0o001#8, 0o062#8, 0o077#8, 0o077#8] =
    some [0x81#8, 0x0C#8, 0xFF#8, 0x0F#8] := by decide
theorem test_store_to_wire_two_words : storeToWire [0x81#8, 0x0C#8, 0xFF#8, 0x0F#8] =
    some [0o001#8, 0o062#8, 0o077#8, 0o077#8] := by decide
theorem test_unwire_reserved_bits :
    unwireToStore [0o301#8, 0o162#8] = some [0x81#8, 0x0C#8] := by decide
theorem test_store_to_wire_reserved_bits :
    storeToWire [0x81#8, 0xFC#8] = some [0o001#8, 0o062#8] := by decide
theorem test_unwire_refuses_odd : unwireToStore [0#8] = none := by decide
theorem test_neg12 : neg12 128 = 0o7600#12 ∧ neg12 3968 = 0o0200#12 ∧ neg12 8320 = 0o7600#12 ∧
    neg12 4096 = 0#12 ∧ neg12 1 = 0o7777#12 := by decide

/-! ### The commands, at most two tests for each -/

/-- B3 to B5 and §8 scenario 3: 256 converted bytes, then 0200. -/
theorem test_bootsect :
    after (exec .bootsect (ready .page [])) (fun t =>
      (t.tx.length, t.tx.take 4, t.tx.getLast?, t.phase)) =
      some (257, [0o001#8, 0o062#8, 0o077#8, 0o077#8], some 0x80#8, .idle) := by decide +kernel

/-- B1: chunk 1 is 013, 026, 0131, 0376 and chunk 2 is the words 07402 and 01234. -/
def stateB : State := { ready .page [] with
  cfg := { cfgS .page with
    helpTable := [0o7605#12, 0o1213#12, 0o0054#12, 0o1177#12]
    stage2Table := [0o7402#12, 0o1234#12]
    bootPrefixLen := 130 } }

theorem test_helpboot_chunks :
    after (exec .helpboot stateB) (fun t => (t.tx.length, t.tx.take 14)) =
      some (268, [0o013#8, 0o026#8, 0o131#8, 0o376#8, 0o002#8, 0o074#8, 0o034#8, 0o012#8,
        0o000#8, 0o002#8, 0o000#8, 0o076#8, 0o011#8, 0o062#8]) := by decide +kernel

/-- B2: a forbidden bit in any word of the table ends the command with nothing sent. -/
theorem test_helpboot_forbidden :
    after (exec .helpboot { stateB with cfg := { stateB.cfg with helpForbiddenMask := 0o6000#12 } })
      (fun t => (t.tx, t.trace, t.phase)) = some ([], [], .idle) := by decide +kernel

/-- §8 scenario 1 (V1): the setup words, 04000, 256 data bytes, then 0000. -/
theorem test_xferA_read :
    after (exec .xferA (ready .page [0o000#8, 0o001#8, 0o000#8, 0o002#8, 0#8, 0#8])) (fun t =>
      (t.tx.length, t.tx.take 10, t.tx.drop 262, t.phase)) =
      some (264, [0o001#8, 0o062#8, 0o000#8, 0o076#8, 0o000#8, 0o040#8,
        0o001#8, 0o062#8, 0o077#8, 0o077#8], [0#8, 0#8], .idle) := by decide +kernel

/-- X8: a FIXED write of no blocks is acknowledged, written and flushed, and changes no byte. -/
theorem test_xferA_write_nothing :
    after (exec .xferA (ready .fixed [0o000#8, 0o040#8, 0#8, 0#8, 0o005#8, 0#8, 0#8, 0#8]))
      (fun t => (t.tx.drop 4, t.trace.drop 3, t.stores.u0)) =
      some ([0o000#8, 0o050#8, 0#8, 0#8],
        [.recv [], .drain [], .send [0#8, 0#8], .storeWrite .u0 2560 [], .storeFlush .u0],
        storeS) := by decide +kernel

/-- X2: side 1 of a 64-block store is past its end; the read still completes. -/
theorem test_xferB_read_past_end :
    after (exec .xferB (ready .page [0o010#8, 0o001#8, 0#8, 0#8, 0#8, 0#8])) (fun t =>
      (t.tx.length, t.tr.blockOffset, transferOffset t.tr, t.draws)) =
      some (264, 64, 32768, 256) := by decide +kernel

/-- V18 (note a): a write to a write-protected unit, and V22: an unused unit past the boundary. -/
theorem test_xferC_protected :
    after (exec .xferC { ready .page [0o010#8, 0o041#8, 0#8, 0#8, 0#8, 0#8] with
      units := ⟨.plain, ⟨true, false, true⟩, .unused, .unused⟩ }) (fun t =>
      (t.tx.drop 4, t.tr.halfBlock, t.phase)) =
      some ([0o001#8, 0o020#8], true, .idle) := by decide +kernel

theorem test_xferC_unused :
    after (exec .xferC (ready .page [0o010#8, 0o001#8, 0#8, 0#8, 0o044#8, 0o001#8])) (fun t =>
      t.tx.drop 4) = some [0o002#8, 0o020#8] := by decide +kernel

/-- P2 step 1, without its data: the write waits in WR_RECV for 256 bytes. -/
theorem test_xferD_waits :
    after (exec .xferD { ready .page [0o010#8, 0o041#8, 0o000#8, 0o004#8, 0o002#8, 0o000#8] with
      units := ⟨.plain, .plain, .unused, .unused⟩ }) (fun t =>
      (t.phase, t.tx.drop 4, transferOffset t.tr, t.tr.totalBytes)) =
      some (.xfer .wrRecv, [0o000#8, 0o050#8], 33792, 256) := by decide +kernel

/-- V20 (note b): a read of a read-protected unit. -/
theorem test_xferE_read_protected :
    after (exec .xferE { ready .page [0o010#8, 0o001#8, 0#8, 0#8, 0#8, 0#8] with
      units := ⟨.plain, .unused, ⟨true, true, false⟩, .unused⟩ }) (fun t => t.tx.drop 4) =
      some [0o001#8, 0o020#8] := by decide +kernel

/-- Unit 2, side 1, with stray bytes (X3): the drain takes them and the last word is the NACK. -/
theorem test_xferF_desync :
    after (exec .xferF { ready .fixed [0#8, 0#8, 0#8, 0#8, 0#8, 0#8, 0#8, 0#8, 0x58#8] with
      units := ⟨.plain, .unused, .plain, .unused⟩
      isOpen := ⟨true, false, true, false⟩ }) (fun t =>
      (t.tx.drop 6, t.rxq, t.desync, t.tr.unit, t.tr.side)) =
      some ([0o010#8, 0o020#8], [], true, .u2, 1#1) := by decide +kernel

/-- §8 scenario 2 (V2): unit 3 is not in use; 02000 with no extra bits. -/
theorem test_xferG_unavailable :
    after (exec .xferG (ready .page [0o000#8, 0o001#8, 0o000#8, 0o002#8, 0#8, 0#8])) (fun t =>
      (t.tx, t.rxq, t.phase)) =
      some ([0o001#8, 0o062#8, 0o000#8, 0o076#8, 0o000#8, 0o020#8], [], .idle) := by
  decide +kernel

/-- E12: too few parameter bytes leave the engine in PARAMS with nothing taken. -/
theorem test_xferH_waits_for_parameters :
    after (exec .xferH (ready .page [0o000#8, 0o001#8, 0o000#8, 0o002#8])) (fun t =>
      (t.phase, t.tx, t.rxq.length)) = some (.xfer .params, [], 4) := by decide +kernel

/-- E10: the trace of QUIT with units 0 and 2 open and a power-off. -/
theorem test_quit :
    after (exec .quit { ready .page [0x41#8] with
      cfg := { cfgS .page with powerOff := true }
      isOpen := ⟨true, false, true, false⟩ }) (fun t => (t.trace, t.phase, t.rxq)) =
      some ([.storeFlush .u0, .storeClose .u0, .storeFlush .u2, .storeClose .u2, .powerOff,
        .halt .quit], .halted .quit, [0x41#8]) := by decide

/-- E9: a flush that fails ends the engine in FATAL, with nothing closed. -/
theorem test_quit_flush_fails :
    after (exec .quit { ready .page [] with env := [⟨[], false, some 0⟩] }) (fun t =>
      (t.phase, t.isOpen.u0, t.trace)) =
      some (.fatal ⟨.storeFlush, some .u0⟩, true, [.fatal ⟨.storeFlush, some .u0⟩]) := by decide

/-- E3: a byte that names no command is taken and dropped. -/
theorem test_ignored :
    after (step (ready .page [0x5A#8, 0x40#8])) (fun t => (t.phase, t.rxq, t.tx, t.cmd)) =
      some (.idle, [0x40#8], [], 0x5A#8) := by decide +kernel

/-- V17 of the resolver: boundary and resident, both bits in the NACK. -/
theorem test_resolver_both_bits :
    (resolve (cfgS .page) State.reset.units 0x41#8 ⟨0o0200#12, 0o7500#12, 0o0100#12, 0⟩).ack =
      0o2006#12 := by decide +kernel

/-- V32: side 1, sub-unit 7. -/
theorem test_resolver_fixed_offset :
    transferOffset (resolve (cfgS .fixed) State.reset.units 0x42#8
      ⟨0o0007#12, 0o0160#12, 0#12, 0o0002#12⟩) = 1867776 := by decide +kernel

/-- X10 in small: bytes written past the end of a store, over a gap, which reads as zero. -/
theorem test_store_grows :
    (Store.writeBytes ⟨2, [(0, 1#8)]⟩ 4 [5#8, 0#8]) = ⟨6, [(0, 1#8), (4, 5#8)]⟩ := by decide

/-- Storing a zero removes the cell: equal stores are equal data. -/
theorem test_store_zero_removes_cell :
    (Store.writeBytes ⟨2, [(0, 1#8), (1, 2#8)]⟩ 0 [0#8]) = ⟨2, [(1, 2#8)]⟩ := by decide

/-- E5: a write that fails after 3 bytes leaves a written front part. -/
theorem test_storeWrite_fails_part_way :
    after (storeWrite .u0 0 [1#8, 2#8, 3#8, 4#8]
      { ready .page [] with env := [⟨[], false, some 3⟩] }).outcome (fun t =>
      (t.phase, t.stores.u0.cells)) =
      some (.fatal ⟨.storeWrite, some .u0⟩, [(0, 1#8), (1, 2#8), (2, 3#8), (3, 0x0F#8)]) := by
  decide +kernel

/-- An outcome that reads as a next state is one. -/
theorem next_of_isSome {o : Host.Outcome State Fault Refusal} (h : (next? o).isSome = true) :
    ∃ t, o = .next t := by
  cases o with
  | next t => exact ⟨t, rfl⟩
  | _ => cases h

/-! ### Witnesses: states and operands that meet the hypotheses of each statement -/

theorem noFailures_of_nil {s : State} (h : s.env = []) : NoFailures s := by
  intro m hm; rw [h] at hm; cases hm

/-- A 1-page read of field 1, block 0: V19's words. -/
def readWords : List Byte := [0o010#8, 0o001#8, 0#8, 0#8, 0#8, 0#8]

/-- V7: a write of 2 pages to block 2. -/
def writeWords : List Byte := [0o010#8, 0o042#8, 0o000#8, 0o004#8, 0o002#8, 0o000#8]

/-- V6: a write of 1 page to block 2, which has a half block. -/
def halfWords : List Byte := [0o010#8, 0o041#8, 0o000#8, 0o000#8, 0o002#8, 0o000#8]

/-- V10: block 64, past the side. -/
def rejectWords : List Byte := [0o010#8, 0o001#8, 0#8, 0#8, 0o000#8, 0o001#8]

/-- V39 and V33 in FIXED mode: a read of no blocks at block 64 and at block 5. -/
def fixedReadWords : List Byte := [0#8, 0#8, 0#8, 0#8, 0o000#8, 0o001#8, 0#8, 0#8]

/-- X8: a FIXED write of no blocks. -/
def fixedWriteWords : List Byte := [0o000#8, 0o040#8, 0#8, 0#8, 0o005#8, 0#8, 0#8, 0#8]

/-- One page of data bytes. -/
def pageData : List Byte := List.replicate 256 0o52#8

/-- A transfer of unit 0 that waits for its parameter block. -/
def atBlock (mode : Mode) (queue : List Byte) : State :=
  { ready mode queue with phase := .xfer .params, cmd := 0x41#8 }

/-- A write of unit 0 with parameter words `w` that waits for its data. -/
def awaiting (mode : Mode) (w : ParamRegs) (queue : List Byte) : State :=
  { ready mode queue with
    phase := .xfer .wrRecv
    cmd := 0x41#8
    w := w
    tr := resolve (cfgS mode) State.reset.units 0x41#8 w }

/-- The words of `halfWords`, and of `fixedWriteWords`. -/
def halfRegs : ParamRegs := ⟨0o4110#12, 0#12, 0o2#12, 0#12⟩
def fixedWriteRegs : ParamRegs := ⟨0o4000#12, 0#12, 0o5#12, 0#12⟩

theorem storeS_wf : storeS.wf := by decide

theorem ready_stores_wf (mode : Mode) (q : List Byte) (u : UnitNo) :
    ((ready mode q).stores.get u).wf := by
  cases u
  · exact storeS_wf
  all_goals exact ⟨⟨List.Pairwise.nil, fun c hc => nomatch hc⟩, fun c hc => nomatch hc⟩

theorem ready_sound (mode : Mode) (q : List Byte) : Sound (ready mode q) :=
  ⟨ready_stores_wf mode q, cfgS_wf mode, rfl, rfl⟩

theorem atBlock_sound (mode : Mode) (q : List Byte) : Sound (atBlock mode q) :=
  ⟨ready_stores_wf mode q, ⟨cfgS_wf mode, rfl, rfl⟩, rfl, trivial⟩

/-- A wait for write data is sound when the request it holds was accepted. -/
theorem awaiting_sound {mode : Mode} {w : ParamRegs} {q : List Byte}
    (h : (awaiting mode w q).tr.ok = true) (hd : (awaiting mode w q).tr.dir = .write) :
    Sound (awaiting mode w q) :=
  ⟨ready_stores_wf mode q, ⟨cfgS_wf mode, rfl, rfl⟩, rfl, ⟨rfl, h, hd⟩, rfl⟩

theorem test_witness_CodecRoundTrips :
    ([0o01#8, 0o62#8] : List Byte).length % 2 = 0 ∧
    (∀ b ∈ ([0o01#8, 0o62#8] : List Byte), b &&& 0o300#8 = 0#8) ∧
    (∀ i b, ([0x81#8, 0x0C#8] : List Byte)[i]? = some b → i % 2 = 1 → b &&& 0xF0#8 = 0#8) := by
  refine ⟨rfl, by decide, fun i b h hi => ?_⟩
  match i, h with
  | 1, h => cases h; rfl

theorem test_witness_BulkConversionIsWordByWord :
    ([0o01#8, 0o62#8] : List Byte).length % 2 = 0 ∧ ([0o01#8] : List Byte).length % 2 = 1 := by
  decide

theorem test_witness_TransferByteFields :
    (0x41#8 ≤ 0x41#8 ∧ 0x41#8 ≤ 0x48#8) ∧ (0x41#8 ≤ 0x48#8 ∧ 0x48#8 ≤ 0x48#8) := by decide

theorem test_witness_TransferDecodeEncode :
    Instr.xferH.isTransfer = true ∧
    (ParamBlock.page .write 32 7 0o7777#12 0o7777#12).fits .page = true ∧
    (ParamBlock.page .read 1 0 0#12 0#12).fits .page = true ∧
    (ParamBlock.fixed .write 7 7 15 0o7777#12 0o7777#12).fits .fixed = true := by decide

theorem test_witness_StepRunsDecodedCommand :
    ((ready .page [0x51#8]).phase = .idle ∧ (ready .page [0x51#8]).advance.cancel = false ∧
      (ready .page [0x51#8]).failNow = none ∧
      decode (ready .page [0x51#8]).advance.rxq = .ok (.quit, [])) ∧
    ((ready .page []).withPhase (.xfer .params)).phase = .xfer .params :=
  ⟨⟨rfl, rfl, rfl, rfl⟩, rfl⟩

theorem test_witness_IdleEngineWaits :
    (ready .page []).phase = .idle ∧ (ready .page []).advance.cancel = false ∧
      (ready .page []).advance.rxq = [] := ⟨rfl, rfl, rfl⟩

theorem test_witness_CancelIsTakenFirst :
    ∃ s : State, s.phase = .idle ∧ s.advance.cancel = true ∧ NoFailures s ∧ s.rxq = [0x41#8] :=
  ⟨{ ready .page [0x41#8] with cancel := true }, rfl, rfl, noFailures_of_nil rfl, rfl⟩

theorem test_witness_UnnamedByteIsDropped :
    ((ready .page [0x5A#8]).phase = .idle ∧ (ready .page [0x5A#8]).advance.cancel = false ∧
      (ready .page [0x5A#8]).failNow = none ∧ (ready .page [0x5A#8]).advance.rxq = [0x5A#8]) ∧
    isNamedCommand 0x5A#8 = false ∧ isNamedCommand 0x01#8 = false ∧
    isNamedCommand 0x3F#8 = false ∧ isNamedCommand 0x49#8 = false ∧
    isNamedCommand 0x50#8 = false ∧ isNamedCommand 0x52#8 = false ∧
    isNamedCommand 0xFF#8 = false :=
  ⟨⟨rfl, rfl, rfl, rfl⟩, by decide⟩

theorem test_witness_QuitCompletes : NoFailures (ready .page []) := noFailures_of_nil rfl

/-- In `QUIT` the flush of unit 1 fails; in the cancel shutdown, whose request comes with the first
move, the close of unit 0 does. -/
theorem test_witness_ShutdownFaultLeavesLaterUnitsOpen :
    (∃ t, exec .quit { ready .page [] with
        isOpen := ⟨true, true, false, true⟩
        env := [⟨[], false, none⟩, ⟨[], false, none⟩, ⟨[], false, some 0⟩] } = .next t ∧
      t.phase = .fatal ⟨.storeFlush, some .u1⟩) ∧
    ∃ s t : State, s.phase = .idle ∧ s.advance.cancel = true ∧ step s = .next t ∧
      t.phase = .fatal ⟨.storeClose, some .u0⟩ :=
  ⟨⟨_, rfl, rfl⟩,
    { ready .page [0x41#8] with
      isOpen := ⟨true, true, false, true⟩
      env := [⟨[], true, none⟩, ⟨[], false, none⟩, ⟨[], false, some 0⟩] }, _, rfl, rfl, rfl, rfl⟩

/-- A transfer, a boot command, `QUIT` and an ignored byte; and a boot command whose read fails. -/
theorem test_witness_CommandFrame :
    (∃ t, exec .xferA (ready .page rejectWords) = .next t) ∧
    (∃ t, exec .helpboot (ready .page []) = .next t) ∧
    (∃ t, exec .bootsect (ready .page []) = .next t) ∧
    (∃ t, exec .quit (ready .page []) = .next t) ∧
    (∃ t, exec (.ignored 0x5A#8) (ready .page []) = .next t) ∧
    ∃ t, exec .bootsect { ready .page [] with env := [⟨[], true, some 1⟩] } = .next t ∧
      t.phase = .fatal ⟨.storeRead, some .u0⟩ :=
  ⟨⟨_, rfl⟩, next_of_isSome (by decide +kernel), next_of_isSome (by decide +kernel), ⟨_, rfl⟩,
    ⟨_, rfl⟩, _, rfl, rfl⟩

theorem test_witness_BootsectCompletes :
    (ready .page []).isOpen.get .u0 = true ∧ NoFailures (ready .page []) :=
  ⟨rfl, noFailures_of_nil rfl⟩

theorem test_witness_HelpbootCompletes :
    (∀ w ∈ stateB.cfg.helpTable, w &&& stateB.cfg.helpForbiddenMask = 0#12) ∧
      stateB.isOpen.get .u0 = true ∧ NoFailures stateB :=
  ⟨fun _ _ => BitVec.and_zero, rfl, noFailures_of_nil rfl⟩

/-- The forbidden word may be the first or the last of the table. -/
theorem test_witness_ForbiddenHelpWordAborts :
    (∃ w ∈ ([0o7605#12, 0o1213#12] : List Word12), w &&& 0o6000#12 ≠ 0#12) ∧
    (∃ w ∈ ([0o1213#12, 0o7605#12] : List Word12), w &&& 0o6000#12 ≠ 0#12) := by decide

theorem test_witness_HelpByteInjective : (cfgS .page).helpBytesInjective :=
  launch_helpBytesInjective

theorem test_witness_HelpChunkLinksToNextWord :
    ([0o7605#12, 0o1213#12] : List Word12)[0]? = some 0o7605#12 ∧
    ([0o7605#12, 0o1213#12] : List Word12)[1]? = some 0o1213#12 := by decide

theorem test_witness_BootPrefixIsPatchedInPlace :
    (cfgS .page).wf ∧ (List.replicate 512 0o7#8 : List Byte).length = 512 ∧
    3 < (cfgS .page).bootPrefixLen ∧ 3 ≠ (cfgS .page).patchAddrOff ∧
    3 ≠ (cfgS .page).patchWcOff ∧ 3 ≠ (cfgS .page).patchCdfOff :=
  ⟨cfgS_wf .page, List.length_replicate, by decide, by decide, by decide, by decide⟩

theorem test_witness_PageRequestFields : (cfgS .page).mode = .page := rfl

theorem test_witness_FixedRequestFields : (cfgS .fixed).mode = .fixed := rfl

theorem test_witness_BlockOffsetFormula :
    (cfgS .page).mode = .page ∧
    ((cfgS .fixed).mode = .fixed ∧ (cfgS .fixed).fixedSideOffset = true) ∧
    (({ cfgS .fixed with fixedSideOffset := false } : Cfg).mode = .fixed ∧
      ({ cfgS .fixed with fixedSideOffset := false } : Cfg).fixedSideOffset = false) :=
  ⟨rfl, ⟨rfl, rfl⟩, rfl, rfl⟩

/-- An accepted request, at the last block of the side (V8), and a rejected one, a page further
(V9). -/
theorem test_witness_ChecksSetOkAndAck :
    (resolve (cfgS .page) State.reset.units 0x41#8 ⟨0o0210#12, 0, 0o0077#12, 0⟩).ok = true ∧
    (resolve (cfgS .page) State.reset.units 0x41#8 ⟨0o0310#12, 0, 0o0077#12, 0⟩).ok = false := by
  decide +kernel

/-- V12: a field-0 buffer that ends just below the resident region; V16: field 1; and V32: a FIXED
request of sub-unit 7, which the check lets through and whose blocks lie past the side. -/
theorem test_witness_AcceptsExactlyUpToTheBound :
    (State.reset.units.get .u0).inUse = true ∧
    (State.reset.units.get .u0).writeProtect = false ∧
    (State.reset.units.get .u0).readProtect = false ∧
    (resolve (cfgS .page) State.reset.units 0x41#8
      ⟨0o0100#12, 0o7400#12, 0, 0⟩).bufferAddress.toNat + 128 = 0o7600 ∧
    (resolve (cfgS .page) State.reset.units 0x41#8
      ⟨0o0110#12, 0o7600#12, 0, 0⟩).field ≠ 0#3 ∧
    (cfgS .page).numberOfBlocks < (resolve (cfgS .page) State.reset.units 0x41#8
      ⟨0o0110#12, 0, 64#12, 0⟩).startBlock + 1 ∧
    (resolve (cfgS .fixed) State.reset.units 0x41#8
      ⟨0o0007#12, 0o0160#12, 0#12, 0o0002#12⟩).ok = true := by decide +kernel

theorem test_witness_ZeroPagesMeansThirtyTwo :
    (cfgS .page).mode = .page ∧ (0o4017#12 : Word12) &&& 0o3700#12 = 0#12 :=
  ⟨rfl, by decide⟩

theorem ready_open (mode : Mode) (q : List Byte) (u : UnitNo) :
    (ready mode q).isOpen.get u = ((ready mode q).units.get u).inUse := by cases u <;> rfl

/-- The smallest queue a transfer takes: exactly the parameter block of the mode. -/
theorem test_witness_TransferFraming :
    Instr.xferA.isTransfer = true ∧ (ready .page readWords).AtParams ∧
    (atBlock .page readWords).AtParams ∧ NoFailures (atBlock .page readWords) ∧
    NoFailures (ready .page readWords) ∧ NoFailures (ready .fixed fixedReadWords) ∧
    (ready .page readWords).paramLength = ((ready .page readWords).rxq ++
      (ready .page readWords).arrived 1).length ∧
    (ready .fixed fixedReadWords).paramLength = ((ready .fixed fixedReadWords).rxq ++
      (ready .fixed fixedReadWords).arrived 1).length ∧
    (∀ u, (ready .page readWords).isOpen.get u = ((ready .page readWords).units.get u).inUse) :=
  ⟨rfl, .inl rfl, .inr rfl, noFailures_of_nil rfl, noFailures_of_nil rfl, noFailures_of_nil rfl, rfl,
    rfl, ready_open .page readWords⟩

theorem test_witness_RejectedTransferCompletes :
    Instr.xferA.isTransfer = true ∧ (ready .page rejectWords).AtParams ∧
    ((atBlock .page rejectWords).AtParams ∧ ((atBlock .page rejectWords).request .xferA).ok = false) ∧
    NoFailures (ready .page rejectWords) ∧
    (ready .page rejectWords).paramLength ≤ ((ready .page rejectWords).rxq ++
      (ready .page rejectWords).arrived 1).length ∧
    ((ready .page rejectWords).request .xferA).ok = false :=
  ⟨rfl, .inl rfl, ⟨.inr rfl, by decide +kernel⟩, noFailures_of_nil rfl, by decide,
    by decide +kernel⟩

/-- A 1-page read with nothing after it, and a FIXED read of no blocks at block `N` with a stray
byte. -/
theorem test_witness_ReadTransferCompletes :
    ((ready .page readWords).AtParams ∧ NoFailures (ready .page readWords) ∧
      (ready .page readWords).paramLength ≤ ((ready .page readWords).rxq ++
        (ready .page readWords).arrived 1).length ∧
      ((ready .page readWords).request .xferA).ok = true ∧
      ((ready .page readWords).request .xferA).dir = .read ∧
      (ready .page readWords).isOpen.get ((ready .page readWords).request .xferA).unit = true ∧
      ((ready .page readWords).rxq ++ (ready .page readWords).arrived 6).drop
        (ready .page readWords).paramLength = []) ∧
    (((ready .fixed (fixedReadWords ++ [0x58#8])).request .xferA).ok = true ∧
      ((ready .fixed (fixedReadWords ++ [0x58#8])).request .xferA).dir = .read ∧
      ((ready .fixed (fixedReadWords ++ [0x58#8])).rxq ++
        (ready .fixed (fixedReadWords ++ [0x58#8])).arrived 6).drop
        (ready .fixed (fixedReadWords ++ [0x58#8])).paramLength = [0x58#8]) :=
  ⟨⟨.inl rfl, noFailures_of_nil rfl, by decide, by decide +kernel, by decide +kernel,
    by decide +kernel, by decide⟩, by decide +kernel, by decide +kernel, by decide⟩

/-- V6 with its page of data; and a FIXED write of no blocks. -/
theorem test_witness_WriteTransferCompletes :
    ((ready .page (halfWords ++ pageData)).AtParams ∧
      NoFailures (ready .page (halfWords ++ pageData)) ∧
      ((ready .page (halfWords ++ pageData)).request .xferA).ok = true ∧
      ((ready .page (halfWords ++ pageData)).request .xferA).dir = .write ∧
      (ready .page (halfWords ++ pageData)).isOpen.get
        ((ready .page (halfWords ++ pageData)).request .xferA).unit = true ∧
      ((ready .page (halfWords ++ pageData)).rxq ++
        (ready .page (halfWords ++ pageData)).arrived 4).length =
        (ready .page (halfWords ++ pageData)).paramLength +
          ((ready .page (halfWords ++ pageData)).request .xferA).totalBytes ∧
      ((ready .page (halfWords ++ pageData)).rxq ++
        (ready .page (halfWords ++ pageData)).arrived 5).length =
        (ready .page (halfWords ++ pageData)).paramLength +
          ((ready .page (halfWords ++ pageData)).request .xferA).totalBytes) ∧
    (((ready .fixed fixedWriteWords).request .xferA).ok = true ∧
      ((ready .fixed fixedWriteWords).request .xferA).dir = .write ∧
      ((ready .fixed fixedWriteWords).rxq ++ (ready .fixed fixedWriteWords).arrived 5).length =
        (ready .fixed fixedWriteWords).paramLength +
          ((ready .fixed fixedWriteWords).request .xferA).totalBytes) :=
  ⟨⟨.inl rfl, noFailures_of_nil rfl, by decide +kernel, by decide +kernel, by decide +kernel,
    by decide +kernel, by decide +kernel⟩, by decide +kernel, by decide +kernel,
    by decide +kernel⟩

/-- One stray byte after the data of a write. -/
theorem test_witness_DesyncedWriteCommitsNothing :
    (ready .fixed (fixedWriteWords ++ [0#8])).AtParams ∧
    NoFailures (ready .fixed (fixedWriteWords ++ [0#8])) ∧
    (ready .fixed (fixedWriteWords ++ [0#8])).paramLength ≤
      ((ready .fixed (fixedWriteWords ++ [0#8])).rxq ++
        (ready .fixed (fixedWriteWords ++ [0#8])).arrived 1).length ∧
    ((ready .fixed (fixedWriteWords ++ [0#8])).request .xferA).ok = true ∧
    ((ready .fixed (fixedWriteWords ++ [0#8])).request .xferA).dir = .write ∧
    (ready .fixed (fixedWriteWords ++ [0#8])).paramLength +
      ((ready .fixed (fixedWriteWords ++ [0#8])).request .xferA).totalBytes <
      ((ready .fixed (fixedWriteWords ++ [0#8])).rxq ++
        (ready .fixed (fixedWriteWords ++ [0#8])).arrived 5).length :=
  ⟨.inl rfl, noFailures_of_nil rfl, by decide, by decide +kernel, by decide +kernel,
    by decide +kernel⟩

/-- From `IDLE`, and from a wait for the parameter block. -/
theorem test_witness_RejectedTransferTouchesNoStore :
    (∃ tr t, (ready .page rejectWords).Serves .xferA tr ∧ tr.ok = false ∧
      exec .xferA (ready .page rejectWords) = .next t) ∧
    ∃ tr t, (atBlock .page rejectWords).Serves .xferA tr ∧ tr.ok = false ∧
      exec .xferA (atBlock .page rejectWords) = .next t :=
  ⟨⟨_, _, .inl ⟨.inl rfl, rfl⟩, by decide +kernel, rfl⟩,
    _, _, .inl ⟨.inr rfl, rfl⟩, by decide +kernel, rfl⟩

/-- A byte just before and just after the blocks of an accepted write, and a byte of another
unit; and the same from a wait for parameters and from a wait for write data. -/
theorem test_witness_TransferStoreFrame :
    (∀ v, ((ready .fixed fixedWriteWords).stores.get v).wf) ∧
    (∃ tr, (ready .fixed fixedWriteWords).Serves .xferA tr) ∧
    (∃ tr, (atBlock .fixed fixedWriteWords).Serves .xferA tr) ∧
    ((∀ v, ((awaiting .page halfRegs pageData).stores.get v).wf) ∧
      (awaiting .page halfRegs pageData).Serves .xferA (awaiting .page halfRegs pageData).tr ∧
      (awaiting .page halfRegs pageData).tr.dir = .write ∧
      transferOffset (awaiting .page halfRegs pageData).tr = 1024 ∧
      (∃ t, exec .xferA (awaiting .page halfRegs pageData) = .next t) ∧
      ¬(1024 ≤ 1023 ∧ 1023 < 1024 + 512 * 1) ∧ ¬(1024 ≤ 1536 ∧ 1536 < 1024 + 512 * 1)) ∧
    (∃ t, exec .xferA (ready .fixed fixedWriteWords) = .next t) ∧
    transferOffset ((ready .fixed fixedWriteWords).request .xferA) = 2560 ∧
    ¬(2560 ≤ 2559 ∧ 2559 < 2560 + 512 * 0) ∧ UnitNo.u1 ≠ .u0 :=
  ⟨ready_stores_wf .fixed fixedWriteWords, ⟨_, .inl ⟨.inl rfl, rfl⟩⟩, ⟨_, .inl ⟨.inr rfl, rfl⟩⟩,
    ⟨ready_stores_wf .page pageData,
      .inr ⟨rfl, awaiting_sound (by decide +kernel) (by decide +kernel), rfl⟩,
      by decide +kernel, by decide +kernel, next_of_isSome (by decide +kernel), by decide,
      by decide⟩,
    ⟨_, rfl⟩, by decide +kernel, by decide, by decide⟩

/-- One byte fewer than the parameter block, in both modes. -/
theorem test_witness_TransferWaitsForParameters :
    (ready .page (readWords.take 5)).AtParams ∧ (atBlock .page (readWords.take 5)).AtParams ∧
    (ready .page (readWords.take 5)).failNow = none ∧
    ((ready .page (readWords.take 5)).rxq ++ (ready .page (readWords.take 5)).arrived 1).length <
      (ready .page (readWords.take 5)).paramLength ∧
    ((ready .fixed (fixedReadWords.take 7)).rxq ++
      (ready .fixed (fixedReadWords.take 7)).arrived 1).length <
      (ready .fixed (fixedReadWords.take 7)).paramLength :=
  ⟨.inl rfl, .inr rfl, rfl, by decide, by decide⟩

/-- No byte of the data, and all but one. -/
theorem test_witness_AcceptedWriteAwaitsData :
    ((ready .page halfWords).AtParams ∧ NoFailures (ready .page halfWords) ∧
      (ready .page halfWords).paramLength ≤
        ((ready .page halfWords).rxq ++ (ready .page halfWords).arrived 1).length ∧
      ((ready .page halfWords).request .xferA).ok = true ∧
      ((ready .page halfWords).request .xferA).dir = .write ∧
      ((ready .page halfWords).rxq ++ (ready .page halfWords).arrived 4).length <
        (ready .page halfWords).paramLength + ((ready .page halfWords).request .xferA).totalBytes) ∧
    ((ready .page (halfWords ++ pageData.tail)).rxq ++
      (ready .page (halfWords ++ pageData.tail)).arrived 4).length + 1 =
      (ready .page (halfWords ++ pageData.tail)).paramLength +
        ((ready .page (halfWords ++ pageData.tail)).request .xferA).totalBytes :=
  ⟨⟨.inl rfl, noFailures_of_nil rfl, by decide, by decide +kernel, by decide +kernel,
    by decide +kernel⟩, by decide +kernel⟩

/-- One byte fewer than the data. -/
theorem test_witness_WriteWaitsForData :
    (awaiting .page halfRegs pageData.tail).phase = .xfer .wrRecv ∧
    (awaiting .page halfRegs pageData.tail).failNow = none ∧
    ((awaiting .page halfRegs pageData.tail).rxq ++
      (awaiting .page halfRegs pageData.tail).arrived 1).length + 1 =
      (awaiting .page halfRegs pageData.tail).tr.totalBytes :=
  ⟨rfl, rfl, by decide +kernel⟩

/-- A page of data, for half a block; and a FIXED write of no blocks. -/
theorem test_witness_WaitingWriteCompletes :
    (Sound (awaiting .page halfRegs pageData) ∧ NoFailures (awaiting .page halfRegs pageData) ∧
      ((awaiting .page halfRegs pageData).rxq ++
        (awaiting .page halfRegs pageData).arrived 1).length =
        (awaiting .page halfRegs pageData).tr.totalBytes ∧
      ((awaiting .page halfRegs pageData).rxq ++
        (awaiting .page halfRegs pageData).arrived 2).length =
        (awaiting .page halfRegs pageData).tr.totalBytes) ∧
    (Sound (awaiting .fixed fixedWriteRegs []) ∧
      (awaiting .fixed fixedWriteRegs []).tr.totalBytes = 0) :=
  ⟨⟨awaiting_sound (by decide +kernel) (by decide +kernel), noFailures_of_nil rfl,
    by decide +kernel, by decide +kernel⟩,
    awaiting_sound (by decide +kernel) (by decide +kernel), by decide +kernel⟩

/-- One byte more than the data. -/
theorem test_witness_WaitingDesyncedWriteCommitsNothing :
    NoFailures (awaiting .page halfRegs (0#8 :: pageData)) ∧
    (awaiting .page halfRegs (0#8 :: pageData)).tr.totalBytes ≤
      ((awaiting .page halfRegs (0#8 :: pageData)).rxq ++
        (awaiting .page halfRegs (0#8 :: pageData)).arrived 1).length ∧
    (awaiting .page halfRegs (0#8 :: pageData)).tr.totalBytes + 1 =
      ((awaiting .page halfRegs (0#8 :: pageData)).rxq ++
        (awaiting .page halfRegs (0#8 :: pageData)).arrived 2).length :=
  ⟨noFailures_of_nil rfl, by decide +kernel, by decide +kernel⟩

/-- A transfer waits for its parameters, and a write for its data. -/
theorem test_witness_WaitingIsInvisible :
    ((ready .page []).env = [] ∧ ∃ t, exec .xferA (ready .page []) = .next t ∧
      t.phase = .xfer .params) ∧
    ∃ t, exec .xferA (ready .page writeWords) = .next t ∧ t.phase = .xfer .wrRecv :=
  ⟨⟨rfl, _, rfl, rfl⟩, _, rfl, rfl⟩

/-- A primitive of a transfer is done: a drain before the pad, and the pad itself. -/
theorem test_witness_PrimitivesInOrder :
    (∃ t, xferStep 0x41#8 .wrDrain (ready .page []) = .ok () t) ∧
    (∃ t, xferStep 0x41#8 .wrPad (ready .page []) = .ok () t) := ⟨⟨_, rfl⟩, _, rfl⟩

theorem test_witness_TransferSendsSixBitBytes :
    Instr.xferA.isTransfer = true ∧ (∃ t, exec .xferA (ready .page rejectWords) = .next t) ∧
    (∃ t, exec .xferA (atBlock .page rejectWords) = .next t) ∧
    ∃ t, exec .xferA (awaiting .page halfRegs pageData) = .next t :=
  ⟨rfl, ⟨_, rfl⟩, ⟨_, rfl⟩, next_of_isSome (by decide +kernel)⟩

/-- A write past the end, with a byte below the old end outside it. -/
theorem test_witness_StoreReadSeesLastWrite :
    storeS.wf ∧ 0 < storeS.len ∧ ¬(32768 ≤ 0 ∧ 0 < 32768 + 1) := ⟨storeS_wf, by decide, by decide⟩

/-- The last byte below a store's end and the first past it. -/
theorem test_witness_ReadPastEndIsDrawn :
    0 < 2 ∧ 1 < 2 ∧ 32767 + 0 < storeS.len ∧ ¬(32767 + 1 < storeS.len) := by decide

theorem test_witness_FailingPrimitives :
    ∃ s : State, s.failNow = some 1 ∧ s.isOpen.get .u0 = true :=
  ⟨{ ready .page [1#8, 2#8] with env := [⟨[], false, some 1⟩] }, rfl, rfl⟩

theorem test_witness_CancelDoesNotReachACommand :
    ∃ s t : State, exec .xferA s = .next t ∧ (∀ m ∈ s.env, m.cancel = false) :=
  ⟨ready .page [], _, rfl, fun _ hm => nomatch hm⟩

theorem test_witness_FinalPhasesHaveNoStep :
    Phase.isFinal .refused = true ∧ Phase.isFinal (.halted .quit) = true ∧
    Phase.isFinal (.fatal ⟨.send, none⟩) = true := ⟨rfl, rfl, rfl⟩

/-- From `IDLE` with `QUIT`, a transfer, no byte, a cancel request and a failing primitive; and from
each of the two waits. -/
theorem test_witness_OnlyQuitCancelAndFaultsLeaveTheCycle :
    (∃ t, step { ready .page [0x41#8] with cancel := true } = .next t ∧
      t.phase = .halted .cancel) ∧
    (∃ t, step { ready .page [0x41#8] with env := [⟨[], false, some 0⟩] } = .next t ∧
      t.phase = .fatal ⟨.recv, none⟩) ∧
    ((atBlock .page rejectWords).phase.isWait = true ∧
      (decodeCommand (atBlock .page rejectWords).cmd).isTransfer = true ∧
      after (step (atBlock .page rejectWords)) State.phase = some .idle) ∧
    ((awaiting .page halfRegs []).phase.isWait = true ∧
      ∃ t, step (awaiting .page halfRegs []) = .next t ∧ t.phase = .xfer .wrRecv) ∧
    (∃ t, step (ready .page [0x51#8]) = .next t ∧ t.phase = .halted .quit) ∧
    (∃ t, step (ready .page [0x41#8]) = .next t ∧ t.phase = .xfer .params) ∧
    (∃ t, step (ready .page []) = .next t ∧ t.phase = .idle) :=
  ⟨⟨_, rfl, rfl⟩, ⟨_, rfl, rfl⟩, ⟨rfl, rfl, by decide +kernel⟩, ⟨rfl, _, rfl, rfl⟩,
    ⟨_, rfl, rfl⟩, ⟨_, rfl, rfl⟩, _, rfl, rfl⟩

theorem test_witness_ResetRefusesWithoutUnitZero :
    ∃ s : State, s.phase = .reset ∧ s.cfg.wf ∧ s.units.u0.inUse = false :=
  ⟨{ State.launch with units := ⟨.unused, .plain, .unused, .unused⟩ }, rfl, launch_wf, rfl⟩

theorem test_witness_ResetSequence :
    (State.launch.phase = .reset ∧ State.launch.cfg.wf ∧ State.launch.units.u0.inUse = true) ∧
    (∃ s : State, s.phase = .reset ∧ s.cfg.wf ∧ s.units.u0.inUse = false) ∧
    ∃ s : State, s.phase = .reset ∧ ¬s.cfg.wf :=
  ⟨⟨rfl, launch_wf, rfl⟩,
    ⟨{ State.launch with units := ⟨.unused, .unused, .unused, .unused⟩ }, rfl, launch_wf, rfl⟩,
    { State.launch with cfg := { cfgS .page with numberOfBlocks := 0 } }, rfl,
    test_wf_refuses_no_blocks⟩

/-- From `IDLE`, from a wait for parameters and from a wait for write data. -/
theorem test_witness_StepKeepsSound :
    (Sound (ready .page [0x51#8]) ∧ ∃ t, step (ready .page [0x51#8]) = .next t) ∧
    (Sound (atBlock .page halfWords) ∧ ∃ t, step (atBlock .page halfWords) = .next t) ∧
    (Sound (awaiting .page halfRegs pageData) ∧
      ∃ t, step (awaiting .page halfRegs pageData) = .next t) :=
  ⟨⟨ready_sound .page _, _, rfl⟩, ⟨atBlock_sound .page _, _, rfl⟩,
    awaiting_sound (by decide +kernel) (by decide +kernel), next_of_isSome (by decide +kernel)⟩

theorem test_witness_SoundEngineNeverStops :
    Sound (ready .page [0x41#8]) ∧ (ready .page [0x41#8]).phase.isFinal = false ∧
    ((ready .page [0x41#8]).phase = .reset → (ready .page [0x41#8]).cfg.wf) :=
  ⟨ready_sound .page _, rfl, fun _ => cfgS_wf .page⟩

theorem test_witness_ConfigurationIsReadOnly : ∃ t, step (ready .page [0x51#8]) = .next t :=
  ⟨_, rfl⟩

theorem test_witness_TraceAndTransmitOnlyGrow :
    (ready .page [0x51#8]).phase ≠ .reset ∧ ∃ t, step (ready .page [0x51#8]) = .next t :=
  ⟨by decide, _, rfl⟩

theorem test_witness_TraceExplainsTransmit :
    (ready .page (0x41#8 :: rejectWords)).phase ≠ .reset ∧
    sentBytes (ready .page (0x41#8 :: rejectWords)).trace =
      (ready .page (0x41#8 :: rejectWords)).tx ∧
    after (step (ready .page (0x41#8 :: rejectWords))) State.phase = some .idle :=
  ⟨by decide, rfl, by decide +kernel⟩

end Sys2Proof.Tests
end

/-! ## The port primitives, case by case

One rule for each primitive of 00_scope.md R15: to show a property of an attempt, show it of what
the environment may choose. The proofs below of what a procedure keeps, adds or orders go through
these rules. -/

namespace Sys2Proof.Machine

section
variable {s : State} {Q : Host.Outcome State Fault Refusal → Prop}

theorem recv_rule {n : Nat} {P : List Byte → State → Prop}
    (hfail : ∀ k, Q (.next (raiseFatal .recv none (s.advance.withRxq (s.advance.rxq.drop k)))))
    (hwait : Q (.next s.advance))
    (hok : n ≤ s.advance.rxq.length → P (s.advance.rxq.take n)
      ((s.advance.withRxq (s.advance.rxq.drop n)).record (.recv (s.advance.rxq.take n)))) :
    (recv n s).Holds P Q := by
  rw [recv_holds]
  cases s.failNow with
  | some k => exact hfail k
  | none =>
    dsimp only
    split
    next => exact hwait
    next hn => exact hok (Nat.le_of_not_lt hn)

theorem send_rule {bs : List Byte} {P : Unit → State → Prop}
    (hfail : ∀ k, Q (.next (raiseFatal .send none (s.advance.withTx (s.tx ++ bs.take k)))))
    (hok : P () ((s.advance.withTx (s.tx ++ bs)).record (.send bs))) :
    (send bs s).Holds P Q := by
  rw [send_holds]
  cases s.failNow with
  | some k => exact hfail k
  | none => exact hok

theorem drain_rule {P : List Byte → State → Prop}
    (hfail : ∀ k, Q (.next (raiseFatal .drain none (s.advance.withRxq (s.advance.rxq.drop k)))))
    (hok : P s.advance.rxq ((s.advance.withRxq []).record (.drain s.advance.rxq))) :
    (drain s).Holds P Q := by
  rw [drain_holds]
  cases s.failNow with
  | some k => exact hfail k
  | none => exact hok

theorem storeRead_rule {u : UnitNo} {off n : Nat} {P : List Byte → State → Prop}
    (hclosed : ¬s.isOpen.get u = true → Q (.fault (.storeNotOpen u)))
    (hfail : Q (.next (raiseFatal .storeRead (some u) s.advance)))
    (hok : P ((s.stores.get u).readBytes off n s.draws)
      ((s.advance.withDraws (s.draws + n)).record
        (.storeRead u off n ((s.stores.get u).readBytes off n s.draws)))) :
    (storeRead u off n s).Holds P Q := by
  rw [storeRead_holds]
  split
  next =>
    cases s.failNow with
    | some k => exact hfail
    | none => exact hok
  next ho => exact hclosed ho

theorem storeWrite_rule {u : UnitNo} {off : Nat} {bs : List Byte} {P : Unit → State → Prop}
    (hclosed : ¬s.isOpen.get u = true → Q (.fault (.storeNotOpen u)))
    (hfail : ∀ k,
      Q (.next (raiseFatal .storeWrite (some u) (s.advance.writeStore u off (bs.take k)))))
    (hok : P () ((s.advance.writeStore u off bs).record (.storeWrite u off bs))) :
    (storeWrite u off bs s).Holds P Q := by
  rw [storeWrite_holds]
  split
  next =>
    cases s.failNow with
    | some k => exact hfail k
    | none => exact hok
  next ho => exact hclosed ho

theorem storeFlush_rule {u : UnitNo} {P : Unit → State → Prop}
    (hclosed : ¬s.isOpen.get u = true → Q (.fault (.storeNotOpen u)))
    (hfail : Q (.next (raiseFatal .storeFlush (some u) s.advance)))
    (hok : P () (s.advance.record (.storeFlush u))) : (storeFlush u s).Holds P Q := by
  rw [storeFlush_holds]
  split
  next =>
    cases s.failNow with
    | some k => exact hfail
    | none => exact hok
  next ho => exact hclosed ho

theorem storeClose_rule {u : UnitNo} {P : Unit → State → Prop}
    (hclosed : ¬s.isOpen.get u = true → Q (.fault (.storeNotOpen u)))
    (hfail : Q (.next (raiseFatal .storeClose (some u) s.advance)))
    (hok : P () ((s.advance.withOpen (s.isOpen.set u false)).record (.storeClose u))) :
    (storeClose u s).Holds P Q := by
  rw [storeClose_holds]
  split
  next =>
    cases s.failNow with
    | some k => exact hfail
    | none => exact hok
  next ho => exact hclosed ho

end

end Sys2Proof.Machine

/-! ## Soundness (10_state.md)

The invariant `Sound` is carried through the engine by one rule for each port primitive: what the
primitive leaves when it is done, and that a failing or waiting one leaves a sound state. -/

namespace Sys2Proof.Machine

/-! ### What the rules carry -/

/-- The outcome is a next state, and that state is sound. -/
def SoundNext (o : Host.Outcome State Fault Refusal) : Prop := ∃ t, o = .next t ∧ Sound t

/-- What a fault may interrupt and a shutdown keeps: stores in their one form, a configuration of
this hardware, and open stores of units in use only (R39). -/
def Contained (s : State) : Prop :=
  (∀ u, (s.stores.get u).wf) ∧ s.cfg.wf ∧
    ∀ u, s.isOpen.get u = true → (s.units.get u).inUse = true

/-- A started engine with its stores in their one form: `Sound` without the phase. -/
def Running (s : State) : Prop := (∀ u, (s.stores.get u).wf) ∧ Started s

/-- A running engine whose command is the transfer byte `b`: `Sound` inside a transfer, without
what each phase adds. -/
def InTransfer (b : Byte) (s : State) : Prop :=
  Running s ∧ s.cmd = b ∧ (decodeCommand b).isTransfer = true

theorem soundNext_next {s : State} (h : Sound s) : SoundNext (.next s) := ⟨s, rfl, h⟩

/-- A procedure whose end and whose stops are sound has a sound outcome. -/
theorem soundNext_outcome {α : Type} {x : Attempt α}
    (h : x.Holds (fun _ t => Sound t) SoundNext) : SoundNext x.outcome :=
  Attempt.holds_outcome (h.mono (fun _ _ => soundNext_next) fun _ ho => ho)

section
variable {b : Byte} {p : XferPhase} {s : State}

/-- R39: the store of a unit in use is open. -/
theorem Running.isOpen_of_inUse (h : Running s) {u : UnitNo}
    (hu : (s.units.get u).inUse = true) : s.isOpen.get u = true := by
  obtain ⟨-, -, -, ho⟩ := h
  rw [ho, PerUnit.get_map, hu]

/-- R35, R39: the store of unit 0 is open. -/
theorem Running.isOpen_u0 (h : Running s) : s.isOpen.get .u0 = true := by
  have ⟨_, _, h0, _⟩ := h
  exact h.isOpen_of_inUse h0

theorem Running.contained (h : Running s) : Contained s := by
  obtain ⟨hst, hcfg, -, ho⟩ := h
  refine ⟨hst, hcfg, fun u hu => ?_⟩
  rwa [ho, PerUnit.get_map] at hu

theorem Running.sound_of_idle (h : Running s) (hp : s.phase = .idle) : Sound s := by
  unfold Sound; rwa [hp]

theorem Running.sound_goIdle (h : Running s) : Sound s.goIdle := h

/-- A fault leaves a sound state: in `FATAL` no store need be closed (R310). -/
theorem Contained.soundNext_fatal (h : Contained s) (q : Primitive) (u : Option UnitNo) :
    SoundNext (.next (raiseFatal q u s)) := soundNext_next h

theorem Contained.sound_halt (h : Contained s) (hc : ∀ u, s.isOpen.get u = false)
    (r : HaltReason) : Sound (halt r s) := ⟨h.1, h.2.1, hc⟩

/-- What `InTransfer` speaks of: no other field of the state matters to it. -/
theorem InTransfer.keep (h : InTransfer b s) {t : State}
    (hst : t.stores = s.stores := by simp) (hcfg : t.cfg = s.cfg := by simp)
    (hu : t.units = s.units := by simp) (ho : t.isOpen = s.isOpen := by simp)
    (hc : t.cmd = s.cmd := by simp) : InTransfer b t := by
  unfold InTransfer Running Started
  rw [hst, hcfg, hu, ho, hc]
  exact h

/-- What `Accepted` speaks of: no other field of the state matters to it. -/
theorem Accepted.keep {dir : Direction} (h : Accepted dir s) {t : State}
    (htr : t.tr = s.tr := by simp) (hcfg : t.cfg = s.cfg := by simp)
    (hu : t.units = s.units := by simp) (hc : t.cmd = s.cmd := by simp)
    (hw : t.w = s.w := by simp) : Accepted dir t := by
  unfold Accepted State.resolved
  rw [htr, hcfg, hu, hc, hw]
  exact h

theorem InTransfer.contained (h : InTransfer b s) : Contained s := h.1.contained

/-- A transfer enters a phase soundly when what that phase asks for holds. -/
theorem InTransfer.sound_toXfer (h : InTransfer b s) (hx : XferSound p s) :
    Sound (s.toXfer p) ∧ (s.toXfer p).cmd = b := by
  obtain ⟨⟨hst, hs⟩, rfl, ht⟩ := h
  exact ⟨⟨hst, hs, ht, by cases p <;> exact hx⟩, rfl⟩

theorem InTransfer.sound_goIdle (h : InTransfer b s) : Sound s.goIdle ∧ s.goIdle.cmd = b :=
  ⟨h.1.sound_goIdle, h.2.1⟩

/-- The store of a permitted request is open (R36, R39). -/
theorem InTransfer.isOpen_of_permitted (h : InTransfer b s) (hp : Permitted s) :
    s.isOpen.get s.tr.unit = true := h.1.isOpen_of_inUse hp.1

theorem Sound.running_of_idle (h : Sound s) (hp : s.phase = .idle) : Running s := by
  unfold Sound at h; rwa [hp] at h

/-- Soundness inside a transfer, taken apart. -/
theorem Sound.inTransfer (h : Sound s) (hp : s.phase = .xfer p) :
    InTransfer s.cmd s ∧ XferSound p s := by
  unfold Sound at h
  rw [hp] at h
  obtain ⟨hst, hs, ht, hx⟩ := h
  exact ⟨⟨⟨hst, hs⟩, rfl, ht⟩, hx⟩

/-- The environment's move keeps a transfer's phase sound. -/
theorem Sound.advance_xfer (h : Sound s) (hp : s.phase = .xfer p) : Sound s.advance := by
  obtain ⟨⟨⟨hst, hs⟩, -, ht⟩, hx⟩ := h.inTransfer hp
  refine ⟨hst, ?_⟩
  rw [advance_phase, hp]
  exact ⟨hs, ht, by cases p <;> exact hx⟩

end

/-! ### One rule for each primitive -/

section
variable {s : State}

theorem recv_sound {n : Nat} {P : List Byte → State → Prop} (h : Contained s)
    (hwait : Sound s.advance)
    (hok : ∀ bs q, bs.length = n → P bs ((s.advance.withRxq q).record (.recv bs))) :
    (recv n s).Holds P SoundNext :=
  recv_rule (fun _ => Contained.soundNext_fatal (s := s.advance.withRxq _) h _ _)
    (soundNext_next hwait) fun hn => hok _ _ (List.length_take_of_le hn)

theorem send_sound (bs : List Byte) {P : Unit → State → Prop} (h : Contained s)
    (hok : P () ((s.advance.withTx (s.tx ++ bs)).record (.send bs))) :
    (send bs s).Holds P SoundNext :=
  send_rule (fun _ => Contained.soundNext_fatal (s := s.advance.withTx _) h _ _) hok

theorem drain_sound {P : List Byte → State → Prop} (h : Contained s)
    (hok : ∀ bs, P bs ((s.advance.withRxq []).record (.drain bs))) :
    (drain s).Holds P SoundNext :=
  drain_rule (fun _ => Contained.soundNext_fatal (s := s.advance.withRxq _) h _ _) (hok _)

theorem storeRead_sound {u : UnitNo} {off n : Nat} {P : List Byte → State → Prop}
    (h : Contained s) (ho : s.isOpen.get u = true)
    (hok : ∀ bs, bs.length = n →
      P bs ((s.advance.withDraws (s.draws + n)).record (.storeRead u off n bs))) :
    (storeRead u off n s).Holds P SoundNext :=
  storeRead_rule (absurd ho) (Contained.soundNext_fatal (s := s.advance) h _ _)
    (hok _ (Store.length_readBytes _ _ _ _))

/-- Writing bytes to a store keeps every store in its one form. -/
theorem writeStore_stores_wf (h : ∀ u, (s.stores.get u).wf) (u : UnitNo) (off : Nat)
    (bs : List Byte) (v : UnitNo) : ((s.writeStore u off bs).stores.get v).wf := by
  rw [writeStore_stores, PerUnit.get_set]
  split
  · exact Store.wf_writeBytes (h u) off bs
  · exact h v

theorem Contained.writeStore (h : Contained s) (u : UnitNo) (off : Nat) (bs : List Byte) :
    Contained (s.writeStore u off bs) := ⟨writeStore_stores_wf h.1 u off bs, h.2⟩

theorem storeWrite_sound {u : UnitNo} {off : Nat} {bs : List Byte} {P : Unit → State → Prop}
    (h : Contained s) (ho : s.isOpen.get u = true)
    (hok : P () ((s.advance.writeStore u off bs).record (.storeWrite u off bs))) :
    (storeWrite u off bs s).Holds P SoundNext :=
  storeWrite_rule (absurd ho)
    (fun _ => (Contained.writeStore (s := s.advance) h u off _).soundNext_fatal _ _) hok

theorem storeFlush_sound {u : UnitNo} {P : Unit → State → Prop} (h : Contained s)
    (ho : s.isOpen.get u = true) (hok : P () (s.advance.record (.storeFlush u))) :
    (storeFlush u s).Holds P SoundNext :=
  storeFlush_rule (absurd ho) (Contained.soundNext_fatal (s := s.advance) h _ _) hok

theorem storeClose_sound {u : UnitNo} {P : Unit → State → Prop} (h : Contained s)
    (ho : s.isOpen.get u = true)
    (hok : P () ((s.advance.withOpen (s.isOpen.set u false)).record (.storeClose u))) :
    (storeClose u s).Holds P SoundNext :=
  storeClose_rule (absurd ho) (Contained.soundNext_fatal (s := s.advance) h _ _) hok

end

/-! ### Shutdown -/

section
variable {s : State}

/-- Closing a store leaves fewer open. -/
theorem Contained.withOpen_set (h : Contained s) (u : UnitNo) :
    Contained (s.withOpen (s.isOpen.set u false)) := by
  obtain ⟨hst, hcfg, ho⟩ := h
  refine ⟨hst, hcfg, fun v hv => ?_⟩
  rw [withOpen_isOpen, PerUnit.get_set] at hv
  split at hv
  next => exact absurd hv (by decide)
  next => exact ho v hv

/-- A unit's turn at shutdown leaves its store closed and the others as they were (R184). -/
theorem closeUnit_sound (u : UnitNo) {P : Unit → State → Prop} (h : Contained s)
    (hok : ∀ t, Contained t → t.isOpen = s.isOpen.set u false → P () t) :
    (closeUnit u s).Holds P SoundNext := by
  unfold closeUnit
  split
  next ho =>
    rw [Attempt.holds_andThen]
    refine storeFlush_sound h ho (storeClose_sound h ho (hok _ ?_ rfl))
    exact Contained.withOpen_set (s := s.advance) h u
  next ho =>
    refine hok s h (PerUnit.ext_get fun v => ?_)
    rw [PerUnit.get_set]
    split
    next hv => subst hv; simpa using ho
    next => rfl

/-- The orderly close ends with every store closed, or in a fault (R184, R312). -/
theorem closeAll_sound {P : Unit → State → Prop} (h : Contained s)
    (hok : ∀ t, Contained t → (∀ u, t.isOpen.get u = false) → P () t) :
    (closeAll s).Holds P SoundNext := by
  simp only [closeAll, Attempt.holds_andThen]
  refine closeUnit_sound .u0 h fun t0 h0 o0 => closeUnit_sound .u1 h0 fun t1 h1 o1 =>
    closeUnit_sound .u2 h1 fun t2 h2 o2 => closeUnit_sound .u3 h2 fun t3 h3 o3 => ?_
  refine hok t3 h3 fun u => ?_
  rw [o3, o2, o1, o0]
  cases u <;> rfl

/-- R320: the cancel shutdown ends in `HALTED`, or in a fault. -/
theorem cancelShutdown_sound (h : Contained s) : SoundNext (cancelShutdown s).outcome := by
  refine soundNext_outcome ?_
  rw [cancelShutdown, Attempt.holds_andThen]
  exact closeAll_sound h fun t ht hc => ht.sound_halt hc .cancel

theorem powerOffIf_contained (h : Contained s) : Contained (powerOffIf s) := by
  unfold powerOffIf; split <;> exact h

theorem powerOffIf_isOpen (s : State) : (powerOffIf s).isOpen = s.isOpen := by
  unfold powerOffIf; split <;> rfl

/-- R184: `QUIT` ends in `HALTED`, or in a fault. -/
theorem execQuit_sound (h : Contained s) : SoundNext (execQuit s) := by
  refine soundNext_outcome ?_
  rw [Attempt.holds_andThen]
  refine closeAll_sound (s := s.withPhase .quit) h fun t ht hc => ?_
  exact (powerOffIf_contained ht).sound_halt (by rwa [powerOffIf_isOpen]) .quit

end

/-! ### The boot commands -/

section
variable {s : State}

/-- R270: the boot sector has an even number of bytes, and unit 0 is open. -/
theorem execBootsect_sound (h : Running s) : SoundNext (execBootsect s) := by
  refine soundNext_outcome ?_
  rw [bootSectorSend, Attempt.holds_andThen]
  refine storeRead_sound (s := s.withPhase .bootsect) h.contained h.isOpen_u0 fun bs hbs => ?_
  obtain ⟨wire, hw, -⟩ := storeToWire_even (ss := bs) (by rw [hbs]; rfl)
  simp only [hw, Attempt.holds_andThen]
  exact send_sound wire h.contained (send_sound _ h.contained h.sound_goIdle)

/-- R272, R274: the injector aborts idle, or sends its three chunks and is idle. -/
theorem execHelpboot_sound (h : Running s) : SoundNext (execHelpboot s) := by
  refine soundNext_outcome ?_
  unfold bootstrapInject
  split
  next => exact h.sound_goIdle
  next =>
    simp only [Attempt.holds_andThen]
    refine send_sound (s := s.withPhase .help) _ h.contained (send_sound _ h.contained ?_)
    refine storeRead_sound h.contained h.isOpen_u0 fun block _ => ?_
    exact send_sound _ h.contained h.sound_goIdle

end

/-! ### The phases of a transfer -/

section
variable {b : Byte} {s : State}

/-- A primitive of a transfer is done in a sound state of the same command. -/
abbrev StaysSound (b : Byte) (x : Attempt Unit) : Prop :=
  x.Holds (fun _ t => Sound t ∧ t.cmd = b) SoundNext

theorem xferParams_sound (h : InTransfer b s) (hwait : Sound s.advance) :
    StaysSound b (xferParams b s) := by
  simp only [StaysSound, xferParams, Attempt.holds_andThen, Attempt.holds_ok]
  refine recv_sound h.contained hwait fun bs q _ => ?_
  refine InTransfer.sound_toXfer h.keep ?_
  obtain ⟨-, rfl, -⟩ := h
  simp [XferSound, State.resolved]

theorem xferSetup_sound (h : InTransfer b s) (hr : s.tr = s.resolved) :
    StaysSound b (xferSetup s) := by
  simp only [StaysSound, xferSetup, Attempt.holds_andThen, Attempt.holds_ok]
  exact send_sound _ h.contained (InTransfer.sound_toXfer h hr)

/-- R176: the executor of the request's direction, on an accepted request only. -/
theorem afterAck_sound (h : InTransfer b s) (hr : s.tr = s.resolved) :
    Sound (afterAck s) ∧ (afterAck s).cmd = b := by
  cases hok : s.tr.ok with
  | false => rw [afterAck_rejected hok]; exact h.sound_goIdle
  | true =>
    cases hd : s.tr.dir with
    | read =>
      rw [afterAck_read hok hd]
      exact InTransfer.sound_toXfer h ⟨⟨hr, hok, hd⟩, rfl⟩
    | write =>
      rw [afterAck_write hok hd]
      exact InTransfer.sound_toXfer h ⟨⟨hr, hok, hd⟩, rfl⟩

theorem xferAck_sound (h : InTransfer b s) (hr : s.tr = s.resolved) :
    StaysSound b (xferAck s) := by
  simp only [StaysSound, xferAck, Attempt.holds_andThen, Attempt.holds_ok]
  exact send_sound _ h.contained (afterAck_sound h hr)

/-- R241: what is fetched has two bytes for each word. -/
theorem rdFetch_sound (h : InTransfer b s) (ha : Accepted .read s) : StaysSound b (rdFetch s) := by
  simp only [StaysSound, rdFetch, Attempt.holds_andThen, Attempt.holds_ok]
  refine storeRead_sound h.contained (h.isOpen_of_permitted ha.permitted) fun bs hbs => ?_
  refine InTransfer.sound_toXfer h.keep ⟨ha.permitted, ?_⟩
  obtain ⟨-, hbytes, -⟩ := resolved_sizes ha.1
  rw [withBuf_buf, hbs, hbytes]
  omega

theorem rdSend_sound (h : InTransfer b s) (he : s.buf.length % 2 = 0) :
    StaysSound b (rdSend s) := by
  obtain ⟨wire, hw, -⟩ := storeToWire_even he
  simp only [StaysSound, rdSend, hw, Attempt.holds_andThen, Attempt.holds_ok]
  exact send_sound _ h.contained (InTransfer.sound_toXfer h trivial)

/-- The drain check goes on with a phase that does not ask about `desync`. -/
theorem drainCheck_sound {next : XferPhase} (h : InTransfer b s)
    (hx : ∀ q d e, XferSound next (((s.advance.withRxq q).record e).withDesync d)) :
    StaysSound b (drainCheck next s) := by
  simp only [StaysSound, drainCheck, Attempt.holds_andThen, Attempt.holds_ok]
  exact drain_sound h.contained fun bs =>
    InTransfer.sound_toXfer h.keep (hx _ _ _)

theorem rdFinal_sound (h : InTransfer b s) : StaysSound b (rdFinal s) := by
  simp only [StaysSound, rdFinal, Attempt.holds_andThen, Attempt.holds_ok]
  exact send_sound _ h.contained (InTransfer.sound_goIdle h)

theorem wrRecv_sound (h : InTransfer b s) (ha : Accepted .write s) (hwait : Sound s.advance) :
    StaysSound b (wrRecv s) := by
  simp only [StaysSound, wrRecv, Attempt.holds_andThen, Attempt.holds_ok]
  exact recv_sound h.contained hwait fun bs q hbs =>
    InTransfer.sound_toXfer h.keep ⟨ha.keep, by simpa using hbs⟩

/-- R253, R257: the padded data is a whole number of blocks. -/
theorem wrPad_sound (h : InTransfer b s) (ha : Accepted .write s)
    (hb : s.buf.length = s.tr.totalBytes) : StaysSound b (wrPad s) := by
  have hpad : InTransfer b (padBuffer s) := by
    unfold padBuffer; split <;> exact h
  refine hpad.sound_toXfer ⟨?_, ?_⟩
  · simpa [Permitted, padBuffer_tr] using ha.permitted
  · rw [padBuffer_buf, padBuffer_tr, padded_pageCount, ha.length_paddedData hb]

/-- R255: a write commits, or is over. -/
theorem afterWrAck_sound (h : InTransfer b s) (hx : XferSound .wrCommit s) :
    Sound (afterWrAck s) ∧ (afterWrAck s).cmd = b := by
  cases hd : s.desync with
  | true => rw [afterWrAck_desync hd]; exact h.sound_goIdle
  | false => rw [afterWrAck_commit hd]; exact h.sound_toXfer hx

theorem wrAck_sound (h : InTransfer b s) (hx : XferSound .wrAck s) : StaysSound b (wrAck s) := by
  simp only [StaysSound, wrAck, Attempt.holds_andThen, Attempt.holds_ok]
  exact send_sound _ h.contained (afterWrAck_sound h hx)

/-- R256: whole blocks have an even number of bytes, and the unit's store is open. -/
theorem wrCommit_sound (h : InTransfer b s) (hp : Permitted s)
    (hb : s.buf.length = 512 * ceil2 s.tr.pageCount) : StaysSound b (wrCommit s) := by
  obtain ⟨bytes, hw, -⟩ := unwireToStore_even (bs := s.buf) (by omega)
  simp only [StaysSound, wrCommit, hw, Attempt.holds_andThen, Attempt.holds_ok]
  refine storeWrite_sound h.contained (h.isOpen_of_permitted hp) ?_
  obtain ⟨⟨hst, hs⟩, hcmd, ht⟩ := h
  exact InTransfer.sound_toXfer
    ⟨⟨writeStore_stores_wf (s := s.advance) hst _ _ bytes, hs⟩, hcmd, ht⟩ hp

theorem wrFlush_sound (h : InTransfer b s) (hp : Permitted s) : StaysSound b (wrFlush s) := by
  simp only [StaysSound, wrFlush, Attempt.holds_andThen, Attempt.holds_ok]
  exact storeFlush_sound h.contained (h.isOpen_of_permitted hp) (InTransfer.sound_goIdle h)

/-- Every primitive of a transfer takes a sound state to a sound state. -/
theorem xferStep_sound {p : XferPhase} (hp : s.phase = .xfer p) (h : Sound s) :
    StaysSound s.cmd (xferStep s.cmd p s) := by
  obtain ⟨ht, hx⟩ := h.inTransfer hp
  have hwait := h.advance_xfer hp
  cases p with
  | params => exact xferParams_sound ht hwait
  | setup => exact xferSetup_sound ht hx
  | ack => exact xferAck_sound ht hx
  | rdFetch => exact rdFetch_sound ht hx.1
  | rdSend => exact rdSend_sound ht hx.2
  | rdDrain => exact drainCheck_sound ht fun _ _ _ => trivial
  | rdFinal => exact rdFinal_sound ht
  | wrRecv => exact wrRecv_sound ht hx.1 hwait
  | wrDrain => exact drainCheck_sound ht fun _ _ _ => ⟨hx.1.keep, by simpa using hx.2⟩
  | wrPad => exact wrPad_sound ht hx.1 hx.2
  | wrAck => exact wrAck_sound ht hx
  | wrCommit => exact wrCommit_sound ht hx.1 hx.2
  | wrFlush => exact wrFlush_sound ht hx

/-- A run of the transfer procedure from a sound state. -/
theorem xferRun_sound (n : Nat) (h : Sound s) : SoundNext (xferRun s.cmd n s).outcome := by
  refine soundNext_outcome ?_
  have hrun := xferRun_holds (b := s.cmd) (I := fun t => Sound t ∧ t.cmd = s.cmd) (Q := SoundNext)
    (fun p t hp ⟨ht, hc⟩ => hc ▸ xferStep_sound hp ht) n s ⟨h, rfl⟩
  exact hrun.mono (fun _ _ ht => ht.1) fun _ ho => ho

end

/-! ### Every command, and the step -/

section
variable {s : State}

/-- One row of the opcode map: a byte that meets it is encoded back, any other is left to the rows
after it. -/
theorem encodeCommand_row {b c : Byte} {i rest : Instr} (hi : encodeCommand i = c)
    (hrest : encodeCommand rest = b) : encodeCommand (if b = c then i else rest) = b := by
  split
  next h => rw [hi, h]
  next => exact hrest

/-- A byte is the encoding of the command it decodes to (R100, R102): the map has eleven rows, and
`ignored` keeps the byte. -/
theorem encodeCommand_decodeCommand (b : Byte) : encodeCommand (decodeCommand b) = b := by
  unfold decodeCommand
  iterate 11 refine encodeCommand_row rfl ?_
  rfl

/-- A transfer, begun in `IDLE`. -/
theorem enterXfer_sound_of_idle (h : Sound s) (hp : s.phase = .idle)
    (ht : (decodeCommand s.cmd).isTransfer = true) : Sound (enterXfer s) := by
  rw [enterXfer_idle hp]
  exact (InTransfer.sound_toXfer (p := .params) ⟨h.running_of_idle hp, rfl, ht⟩ trivial).1

/-- A transfer command, begun or taken up where it waits. -/
theorem exec_transfer_sound (ht : (decodeCommand s.cmd).isTransfer = true)
    (h : Sound (enterXfer s)) (hc : (enterXfer s).cmd = s.cmd) :
    SoundNext (exec (decodeCommand s.cmd) s) := by
  rw [exec_transfer ht, encodeCommand_decodeCommand, transfer, ← hc]
  exact xferRun_sound xferLength h

/-- A command just taken in `IDLE` has a sound outcome. -/
theorem exec_sound_of_idle (h : Sound s) (hp : s.phase = .idle) :
    SoundNext (exec (decodeCommand s.cmd) s) := by
  have hr := h.running_of_idle hp
  cases ht : (decodeCommand s.cmd).isTransfer with
  | true =>
    refine exec_transfer_sound ht (enterXfer_sound_of_idle h hp ht) ?_
    rw [enterXfer_idle hp, toXfer_cmd]
  | false =>
    cases hi : decodeCommand s.cmd with
    | helpboot => exact execHelpboot_sound hr
    | bootsect => exact execBootsect_sound hr
    | quit => exact execQuit_sound hr.contained
    | ignored b => exact soundNext_next hr.sound_goIdle
    | _ => rw [hi] at ht; cases ht

/-- `IDLE`: the cancel shutdown, a wait, a fault, or a command. -/
theorem step_sound_of_idle (h : Sound s) (hp : s.phase = .idle) : SoundNext (step s) := by
  have hr := h.running_of_idle hp
  rcases fetchCommand_cases s with ⟨-, hf⟩ | ⟨-, -, hf⟩ | ⟨b, rest, k, -, -, -, hf⟩ |
    ⟨b, rest, -, -, -, hf⟩
  · rw [step_idle_stop hp hf]
    exact cancelShutdown_sound (s := s.advance) hr.contained
  · rw [step_idle_stop hp hf]
    exact soundNext_next (Running.sound_of_idle (s := s.advance) hr hp)
  · rw [step_idle_stop hp hf]
    exact Contained.soundNext_fatal (s := s.advance.withRxq _) hr.contained _ _
  · rw [step_idle_ok hp hf]
    exact exec_sound_of_idle (s := ((s.advance.withRxq rest).withCmd b).record (.recv [b]))
      (Running.sound_of_idle hr hp) hp

/-- `RESET`: the engine starts, or is refused for want of unit 0 (R341, R342). -/
theorem resetSequence_sound (hst : ∀ u, (s.stores.get u).wf) (hcfg : s.cfg.wf) :
    SoundNext (resetSequence s) := by
  unfold resetSequence
  rw [if_pos hcfg]
  split
  next h0 => exact soundNext_next ⟨hst, hcfg, h0, rfl⟩
  next h0 => exact soundNext_next ⟨hst, hcfg, by simpa using h0⟩

/-- Outside the final phases a sound engine has a next state, and it is sound. -/
theorem step_sound (h : Sound s) (hf : s.phase.isFinal = false)
    (hcfg : s.phase = .reset → s.cfg.wf) : SoundNext (step s) := by
  cases hp : s.phase with
  | reset =>
    have hstep : step s = resetSequence s := by simp only [step, hp]
    rw [hstep]
    exact resetSequence_sound h.1 (hcfg hp)
  | idle => exact step_sound_of_idle h hp
  | xfer p =>
    obtain ⟨⟨-, -, ht⟩, -⟩ := h.inTransfer hp
    rw [step_xfer hp]
    exact exec_transfer_sound ht ((enterXfer_xfer hp).symm ▸ h) (by rw [enterXfer_xfer hp])
  | bootsect | help | quit => unfold Sound at h; rw [hp] at h; exact h.2.elim
  | refused | halted r | fatal i => rw [hp] at hf; cases hf

end

/-- Settles O49: each of the three final phases answers its own fault. -/
theorem finalPhasesHaveNoStep : Obligations.FinalPhasesHaveNoStep := by
  intro s hf
  cases hp : s.phase with
  | refused => exact ⟨.engineRefused, by simp only [step, hp]⟩
  | halted r => exact ⟨.engineHalted r, by simp only [step, hp]⟩
  | fatal i => exact ⟨.engineFatal i, by simp only [step, hp]⟩
  | reset | idle | xfer p | bootsect | help | quit => rw [hp] at hf; cases hf

/-- Only a configuration of this hardware leaves `RESET` (R341). -/
theorem step_reset_wf {s t : State} (hp : s.phase = .reset) (h : step s = .next t) : s.cfg.wf := by
  by_contra hcfg
  simp only [step, hp, resetSequence, if_neg hcfg] at h
  cases h

/-- Settles O55: a next state is answered outside the final phases only, and there `step_sound`
carries the invariant through every primitive. -/
theorem stepKeepsSound : Obligations.StepKeepsSound := by
  intro s t h hstep
  have hf : s.phase.isFinal = false := by
    by_contra hfin
    obtain ⟨f, hfault⟩ := finalPhasesHaveNoStep s (by simpa using hfin)
    rw [hfault] at hstep
    cases hstep
  obtain ⟨t', ht', hs⟩ := step_sound h hf fun hp => step_reset_wf hp hstep
  rw [hstep] at ht'
  cases ht'
  exact hs

/-- Settles O56: in a sound state every store primitive meets an open store and every list given to
the codec has even length, so `step_sound` finds a next state. -/
theorem soundEngineNeverStops : Obligations.SoundEngineNeverStops := by
  intro s h hf hcfg
  obtain ⟨t, ht, -⟩ := step_sound h hf hcfg
  exact ⟨t, ht⟩

/-- Settles O53. -/
theorem resetStateValues : Obligations.ResetStateValues :=
  ⟨rfl, fun u => by cases u <;> rfl, rfl, rfl, rfl⟩

/-- The stores of the launch state are empty, so in their one form. -/
theorem launch_sound : Sound State.launch := by
  refine ⟨fun u => ?_, trivial⟩
  have hempty : Store.empty.wf := by decide
  cases u <;> exact hempty

/-- Settles O54: the state after reset is the step of the sound launch state. -/
theorem resetIsSound : Obligations.ResetIsSound :=
  stepKeepsSound _ _ launch_sound launch_resets

end Sys2Proof.Machine

/-! ## What every command leaves and adds (10_state.md R37, R48; 20_memory.md R70)

`Grows s t` is said of each primitive once, for every state and every environment, and composed
along each procedure. -/

namespace Sys2Proof.Machine

/-- From `s` to `t` the configuration and the unit table are as they were, and bytes sent and
events recorded are only added. -/
structure Grows (s t : State) : Prop where
  cfg : t.cfg = s.cfg
  units : t.units = s.units
  trace : s.trace <+: t.trace
  tx : s.tx <+: t.tx

/-- For a state made of another by updates, the laws of the updates show each part. -/
theorem Grows.of_updates {s t : State} (cfg : t.cfg = s.cfg := by simp)
    (units : t.units = s.units := by simp) (trace : s.trace <+: t.trace := by simp)
    (tx : s.tx <+: t.tx := by simp) : Grows s t := ⟨cfg, units, trace, tx⟩

theorem Grows.refl (s : State) : Grows s s := .of_updates

theorem Grows.trans {s t r : State} (h : Grows s t) (h' : Grows t r) : Grows s r :=
  ⟨h'.cfg.trans h.cfg, h'.units.trans h.units, h.trace.trans h'.trace, h.tx.trans h'.tx⟩

/-- An outcome grows from `s` when its next state does, if it has one. -/
def OutcomeGrows (s : State) (o : Host.Outcome State Fault Refusal) : Prop :=
  ∀ t, o = .next t → Grows s t

/-- An attempt grows from `s` whether it is done or stops. -/
def Attempt.GrowsFrom {α : Type} (s : State) (x : Attempt α) : Prop :=
  x.Holds (fun _ t => Grows s t) (OutcomeGrows s)

section
variable {s t : State}

theorem Grows.outcome (h : Grows s t) : OutcomeGrows s (.next t) := by
  rintro _ ⟨⟩
  exact h

theorem outcomeGrows_fault (f : Fault) : OutcomeGrows s (.fault f) := by
  rintro _ ⟨⟩

theorem OutcomeGrows.trans {o : Host.Outcome State Fault Refusal} (h : Grows s t)
    (ho : OutcomeGrows t o) : OutcomeGrows s o := fun r hr => h.trans (ho r hr)

end

namespace Attempt.GrowsFrom
variable {α β : Type} {s t : State}

theorem ok {a : α} (h : Grows s t) : (Attempt.ok a t).GrowsFrom s := h

theorem refused (r : Refusal) : (Attempt.stop (.refused r) : Attempt α).GrowsFrom s := by
  rintro _ ⟨⟩

theorem outcome {x : Attempt α} (h : x.GrowsFrom s) : OutcomeGrows s x.outcome :=
  Attempt.holds_outcome (h.mono (fun _ _ => Grows.outcome) fun _ ho => ho)

theorem trans {x : Attempt α} (h : Grows s t) (hx : x.GrowsFrom t) : x.GrowsFrom s :=
  hx.mono (fun _ _ => h.trans) fun _ => OutcomeGrows.trans h

theorem andThen {x : Attempt β} {f : β → State → Attempt α} (hx : x.GrowsFrom s)
    (hf : ∀ b t, (f b t).GrowsFrom t) : (x.andThen f).GrowsFrom s :=
  (Attempt.holds_andThen x f).2 (hx.mono (fun b t ht => (hf b t).trans ht) fun _ ho => ho)

end Attempt.GrowsFrom

/-! ### One rule for each primitive -/

section
variable (s : State)

theorem recv_grows (n : Nat) : (recv n s).GrowsFrom s :=
  recv_rule (fun _ => Grows.outcome .of_updates) (Grows.outcome .of_updates)
    fun _ => Grows.of_updates

theorem send_grows (bs : List Byte) : (send bs s).GrowsFrom s :=
  send_rule (fun _ => Grows.outcome .of_updates) Grows.of_updates

theorem drain_grows : (drain s).GrowsFrom s :=
  drain_rule (fun _ => Grows.outcome .of_updates) Grows.of_updates

theorem storeRead_grows (u : UnitNo) (off n : Nat) : (storeRead u off n s).GrowsFrom s :=
  storeRead_rule (fun _ => outcomeGrows_fault _) (Grows.outcome .of_updates) Grows.of_updates

theorem storeWrite_grows (u : UnitNo) (off : Nat) (bs : List Byte) :
    (storeWrite u off bs s).GrowsFrom s :=
  storeWrite_rule (fun _ => outcomeGrows_fault _) (fun _ => Grows.outcome .of_updates)
    Grows.of_updates

theorem storeFlush_grows (u : UnitNo) : (storeFlush u s).GrowsFrom s :=
  storeFlush_rule (fun _ => outcomeGrows_fault _) (Grows.outcome .of_updates) Grows.of_updates

theorem storeClose_grows (u : UnitNo) : (storeClose u s).GrowsFrom s :=
  storeClose_rule (fun _ => outcomeGrows_fault _) (Grows.outcome .of_updates) Grows.of_updates

end

/-! ### Shutdown and the boot commands -/

section
variable (s : State)

theorem closeUnit_grows (u : UnitNo) : (closeUnit u s).GrowsFrom s := by
  unfold closeUnit
  split
  · exact (storeFlush_grows s u).andThen fun _ t => storeClose_grows t u
  · exact .ok (.refl s)

theorem closeAll_grows : (closeAll s).GrowsFrom s :=
  (closeUnit_grows s .u0).andThen fun _ t => (closeUnit_grows t .u1).andThen fun _ t =>
    (closeUnit_grows t .u2).andThen fun _ t => closeUnit_grows t .u3

theorem cancelShutdown_grows : (cancelShutdown s).GrowsFrom s :=
  (closeAll_grows s).andThen fun _ _ => .ok .of_updates

theorem powerOffIf_grows : Grows s (powerOffIf s) := by
  unfold powerOffIf
  split
  · exact Grows.of_updates
  · exact .refl s

theorem execQuit_grows : OutcomeGrows s (execQuit s) := by
  refine OutcomeGrows.trans (t := s.withPhase .quit) .of_updates (Attempt.GrowsFrom.outcome ?_)
  exact (closeAll_grows _).andThen fun _ t => .ok ((powerOffIf_grows t).trans .of_updates)

theorem execBootsect_grows : OutcomeGrows s (execBootsect s) := by
  refine OutcomeGrows.trans (t := s.withPhase .bootsect) .of_updates (Attempt.GrowsFrom.outcome ?_)
  refine (storeRead_grows _ .u0 0 _).andThen fun bs t => ?_
  cases storeToWire bs with
  | none => exact .refused _
  | some wire =>
    refine .trans (t := t.withBuf bs) .of_updates ?_
    exact (send_grows _ wire).andThen fun _ t => (send_grows t _).andThen fun _ _ => .ok .of_updates

theorem execHelpboot_grows : OutcomeGrows s (execHelpboot s) := by
  refine OutcomeGrows.trans (t := s.withPhase .help) .of_updates (Attempt.GrowsFrom.outcome ?_)
  unfold bootstrapInject
  split
  · exact .ok .of_updates
  · refine (send_grows _ _).andThen fun _ t => (send_grows t _).andThen fun _ t =>
      (storeRead_grows t .u0 0 _).andThen fun block t => ?_
    refine .trans (t := t.withBuf (bootPrefixBytes t.cfg block)) .of_updates ?_
    exact (send_grows _ _).andThen fun _ _ => .ok .of_updates

/-! ### Transfers -/

theorem afterAck_grows : Grows s (afterAck s) := by
  cases hok : s.tr.ok with
  | false => rw [afterAck_rejected hok]; exact Grows.of_updates
  | true =>
    cases hd : s.tr.dir with
    | read => rw [afterAck_read hok hd]; exact Grows.of_updates
    | write => rw [afterAck_write hok hd]; exact Grows.of_updates

theorem afterWrAck_grows : Grows s (afterWrAck s) := by
  cases hd : s.desync with
  | true => rw [afterWrAck_desync hd]; exact Grows.of_updates
  | false => rw [afterWrAck_commit hd]; exact Grows.of_updates

theorem drainCheck_grows (next : XferPhase) : (drainCheck next s).GrowsFrom s :=
  (drain_grows s).andThen fun _ _ => .ok .of_updates

theorem rdSend_grows : (rdSend s).GrowsFrom s := by
  unfold rdSend
  cases storeToWire s.buf with
  | none => exact .refused _
  | some wire => exact (send_grows s wire).andThen fun _ _ => .ok .of_updates

theorem wrCommit_grows : (wrCommit s).GrowsFrom s := by
  unfold wrCommit
  cases unwireToStore s.buf with
  | none => exact .refused _
  | some bytes => exact (storeWrite_grows s _ _ bytes).andThen fun _ _ => .ok .of_updates

theorem xferStep_grows (b : Byte) (p : XferPhase) : (xferStep b p s).GrowsFrom s := by
  cases p with
  | params => exact (recv_grows s _).andThen fun _ _ => .ok .of_updates
  | setup => exact (send_grows s _).andThen fun _ _ => .ok .of_updates
  | ack => exact (send_grows s _).andThen fun _ t => .ok (afterAck_grows t)
  | rdFetch => exact (storeRead_grows s _ _ _).andThen fun _ _ => .ok .of_updates
  | rdSend => exact rdSend_grows s
  | rdDrain => exact drainCheck_grows s _
  | rdFinal => exact (send_grows s _).andThen fun _ _ => .ok .of_updates
  | wrRecv => exact (recv_grows s _).andThen fun _ _ => .ok .of_updates
  | wrDrain => exact drainCheck_grows s _
  | wrPad => exact .ok .of_updates
  | wrAck => exact (send_grows s _).andThen fun _ t => .ok (afterWrAck_grows t)
  | wrCommit => exact wrCommit_grows s
  | wrFlush => exact (storeFlush_grows s _).andThen fun _ _ => .ok .of_updates

theorem enterXfer_grows : Grows s (enterXfer s) := by
  unfold enterXfer
  split
  · exact .refl s
  · exact Grows.of_updates

theorem transfer_grows (b : Byte) : OutcomeGrows s (transfer b s) :=
  Attempt.GrowsFrom.outcome (xferRun_holds (I := Grows s)
    (fun p t _ ht => (xferStep_grows t b p).trans ht) xferLength _ (enterXfer_grows s))

/-! ### Every command, and the step -/

/-- No command writes the configuration or the unit table, or takes back what was sent or
recorded. -/
theorem exec_grows (i : Instr) : OutcomeGrows s (exec i s) := by
  cases ht : i.isTransfer with
  | true => rw [exec_transfer ht]; exact transfer_grows s _
  | false =>
    cases i with
    | helpboot => exact execHelpboot_grows s
    | bootsect => exact execBootsect_grows s
    | quit => exact execQuit_grows s
    | ignored b => exact Grows.outcome .of_updates
    | _ => cases ht

theorem step_grows_of_idle (hp : s.phase = .idle) : OutcomeGrows s (step s) := by
  rcases fetchCommand_cases s with ⟨-, hf⟩ | ⟨-, -, hf⟩ | ⟨b, rest, k, -, -, -, hf⟩ |
    ⟨b, rest, -, -, -, hf⟩
  · rw [step_idle_stop hp hf]
    exact OutcomeGrows.trans .of_updates (cancelShutdown_grows s.advance).outcome
  · rw [step_idle_stop hp hf]
    exact Grows.outcome .of_updates
  · rw [step_idle_stop hp hf]
    exact Grows.outcome .of_updates
  · rw [step_idle_ok hp hf]
    exact OutcomeGrows.trans .of_updates (exec_grows _ _)

/-- Outside `RESET` a step only adds. -/
theorem step_grows (hp : s.phase ≠ .reset) : OutcomeGrows s (step s) := by
  cases hs : s.phase with
  | reset => exact absurd hs hp
  | idle => exact step_grows_of_idle s hs
  | xfer p => rw [step_xfer hs]; exact exec_grows s _
  | bootsect | help | quit => simp only [step, hs]; exact exec_grows s _
  | refused | halted r | fatal i => simp only [step, hs]; exact outcomeGrows_fault _

/-- The reset sequence writes neither the configuration nor the unit table (R37, R341). -/
theorem resetSequence_config {t : State} (h : resetSequence s = .next t) :
    t.cfg = s.cfg ∧ t.units = s.units := by
  unfold resetSequence at h
  split at h
  · split at h <;> cases h <;> exact ⟨rfl, rfl⟩
  · cases h

end

/-- Settles O57: outside `RESET` by `step_grows`, in `RESET` by the reset sequence's two ends. -/
theorem configurationIsReadOnly : Obligations.ConfigurationIsReadOnly := by
  intro s t h
  by_cases hp : s.phase = .reset
  · simp only [step, hp] at h
    exact resetSequence_config s h
  · exact ⟨(step_grows s hp t h).cfg, (step_grows s hp t h).units⟩

/-- Settles O58, by `step_grows`. -/
theorem traceAndTransmitOnlyGrow : Obligations.TraceAndTransmitOnlyGrow :=
  fun s t hp h => ⟨(step_grows s hp t h).trace, (step_grows s hp t h).tx⟩

end Sys2Proof.Machine

/-! ## The order of a transfer's primitives (10_state.md R31, 41_dispatcher.md R176) -/

namespace Sys2Proof.Machine

/-! ### One rule for each primitive -/

/-- `t` is `s` after one primitive that is done: one event more, one move of the environment less,
and the phase, the request and `desync` as they were. -/
structure Performed (s t : State) : Prop where
  event : ∃ e, t.trace = s.trace ++ [e]
  phase : t.phase = s.phase
  tr : t.tr = s.tr
  desync : t.desync = s.desync
  env : t.env = s.env.tail

/-- For a state made of another by updates, the laws of the updates show each part. -/
theorem Performed.of_updates {s t : State}
    (event : ∃ e, t.trace = s.trace ++ [e] := by simp) (phase : t.phase = s.phase := by simp)
    (tr : t.tr = s.tr := by simp) (desync : t.desync = s.desync := by simp)
    (env : t.env = s.env.tail := by simp) : Performed s t :=
  ⟨event, phase, tr, desync, env⟩

/-- The procedure breaks off: with no next state, or in `FATAL`. -/
def BreaksOff (o : Host.Outcome State Fault Refusal) : Prop :=
  ∀ t, o = .next t → ∃ info, t.phase = .fatal info

theorem breaksOff_fatal (q : Primitive) (u : Option UnitNo) (s : State) :
    BreaksOff (.next (raiseFatal q u s)) := by
  rintro _ ⟨⟩
  exact ⟨⟨q, u⟩, rfl⟩

theorem breaksOff_fault (f : Fault) : BreaksOff (.fault f) := by
  rintro _ ⟨⟩

theorem breaksOff_refused (r : Refusal) : BreaksOff (.refused r) := by
  rintro _ ⟨⟩

/-- A primitive that does not wait is done, or breaks off. -/
def Attempt.Performs {α : Type} (s : State) (x : Attempt α) : Prop :=
  x.Holds (fun _ t => Performed s t) BreaksOff

section
variable (s : State)

/-- `Recv` alone may wait, for the environment's next move (R31). -/
theorem recv_performs (n : Nat) :
    (recv n s).Holds (fun _ t => Performed s t) (fun o => BreaksOff o ∨ o = .next s.advance) :=
  recv_rule (fun _ => .inl (breaksOff_fatal _ _ _)) (.inr rfl) fun _ => Performed.of_updates

theorem send_performs (bs : List Byte) : (send bs s).Performs s :=
  send_rule (fun _ => breaksOff_fatal _ _ _) Performed.of_updates

theorem drain_performs : (drain s).Performs s :=
  drain_rule (fun _ => breaksOff_fatal _ _ _) Performed.of_updates

theorem storeRead_performs (u : UnitNo) (off n : Nat) : (storeRead u off n s).Performs s :=
  storeRead_rule (fun _ => breaksOff_fault _) (breaksOff_fatal _ _ _) Performed.of_updates

theorem storeWrite_performs (u : UnitNo) (off : Nat) (bs : List Byte) :
    (storeWrite u off bs s).Performs s :=
  storeWrite_rule (fun _ => breaksOff_fault _) (fun _ => breaksOff_fatal _ _ _)
    Performed.of_updates

theorem storeFlush_performs (u : UnitNo) : (storeFlush u s).Performs s :=
  storeFlush_rule (fun _ => breaksOff_fault _) (breaksOff_fatal _ _ _) Performed.of_updates

end

/-! ### One rule for each phase -/

/-- The phase after a primitive of the transfer procedure that is done at `s` in phase `p` (R176,
R240, R250). -/
def nextPhase (s : State) : XferPhase → Phase
  | .params => .xfer .setup
  | .setup => .xfer .ack
  | .ack => if s.tr.ok then
      (match s.tr.dir with
        | .read => .xfer .rdFetch
        | .write => .xfer .wrRecv)
    else .idle
  | .rdFetch => .xfer .rdSend
  | .rdSend => .xfer .rdDrain
  | .rdDrain => .xfer .rdFinal
  | .rdFinal => .idle
  | .wrRecv => .xfer .wrDrain
  | .wrDrain => .xfer .wrPad
  | .wrPad => .xfer .wrAck
  | .wrAck => if s.desync then .idle else .xfer .wrCommit
  | .wrCommit => .xfer .wrFlush
  | .wrFlush => .idle

/-- `t` is `s` after the primitive of phase `p`: its event, the phase that follows, and no more
moves of the environment than before. -/
structure Follows (p : XferPhase) (s t : State) : Prop where
  pad : p = .wrPad → t.trace = s.trace
  event : p ≠ .wrPad → ∃ e, t.trace = s.trace ++ [e]
  phase : t.phase = nextPhase s p
  env : s.env = [] → t.env = []

/-- A transfer's stop: it breaks off, or waits in a phase that waits (R31). -/
def StopsIn (p : XferPhase) (s : State) (o : Host.Outcome State Fault Refusal) : Prop :=
  BreaksOff o ∨ (o = .next s.advance ∧ (Phase.xfer p).isWait = true)

section
variable {p : XferPhase} {s : State}

/-- After its primitive a phase only updates the engine's own registers and names the next phase. -/
theorem follows_of_performed {u t : State} (hp : p ≠ .wrPad) (h : Performed s u)
    (hkeep : t.trace = u.trace ∧ t.env = u.env) (hphase : t.phase = nextPhase s p) :
    Follows p s t where
  pad := fun h' => absurd h' hp
  event := fun _ => hkeep.1 ▸ h.event
  phase := hphase
  env := fun he => by rw [hkeep.2, h.env, he]; rfl

/-- A phase whose primitive does not wait. -/
theorem Attempt.Performs.follows {α : Type} {x : Attempt α} {f : α → State → State}
    (hx : x.Performs s) (hp : p ≠ .wrPad)
    (hkeep : ∀ a u, (f a u).trace = u.trace ∧ (f a u).env = u.env)
    (hphase : ∀ a u, Performed s u → (f a u).phase = nextPhase s p) :
    (x.andThen fun a u => .ok () (f a u)).Holds (fun _ t => Follows p s t) (StopsIn p s) :=
  (Attempt.holds_andThen ..).2 (hx.mono
    (fun a u h => follows_of_performed hp h (hkeep a u) (hphase a u h))
    fun _ => .inl)

/-- A phase that receives, and so may wait. -/
theorem recv_follows {n : Nat} {f : List Byte → State → State} (hp : (Phase.xfer p).isWait = true)
    (hkeep : ∀ bs u, (f bs u).trace = u.trace ∧ (f bs u).env = u.env)
    (hphase : ∀ bs u, (f bs u).phase = nextPhase s p) :
    ((recv n s).andThen fun bs u => .ok () (f bs u)).Holds (fun _ t => Follows p s t)
      (StopsIn p s) := by
  have hpad : p ≠ .wrPad := by rintro rfl; cases hp
  exact (Attempt.holds_andThen ..).2 ((recv_performs s n).mono
    (fun bs u h => follows_of_performed hpad h (hkeep bs u) (hphase bs u))
    fun _ ho => ho.imp_right fun he => ⟨he, hp⟩)

theorem afterAck_keeps (s : State) :
    (afterAck s).trace = s.trace ∧ (afterAck s).env = s.env := by
  unfold afterAck
  split
  · split <;> exact ⟨rfl, rfl⟩
  · exact ⟨rfl, rfl⟩

theorem afterAck_phase (s : State) : (afterAck s).phase = nextPhase s .ack := by
  rw [nextPhase]
  cases hok : s.tr.ok with
  | false => rw [afterAck_rejected hok]; rfl
  | true =>
    cases hd : s.tr.dir with
    | read => rw [afterAck_read hok hd]; rfl
    | write => rw [afterAck_write hok hd]; rfl

theorem afterWrAck_keeps (s : State) :
    (afterWrAck s).trace = s.trace ∧ (afterWrAck s).env = s.env := by
  unfold afterWrAck
  split <;> exact ⟨rfl, rfl⟩

theorem afterWrAck_phase (s : State) : (afterWrAck s).phase = nextPhase s .wrAck := by
  rw [nextPhase]
  cases hd : s.desync with
  | true => rw [afterWrAck_desync hd]; rfl
  | false => rw [afterWrAck_commit hd]; rfl

theorem rdSend_follows (s : State) :
    (rdSend s).Holds (fun _ t => Follows .rdSend s t) (StopsIn .rdSend s) := by
  unfold rdSend
  cases storeToWire s.buf with
  | none => exact .inl (breaksOff_refused _)
  | some wire =>
    exact (send_performs s wire).follows nofun (fun _ _ => ⟨rfl, rfl⟩) fun _ _ _ => rfl

theorem wrCommit_follows (s : State) :
    (wrCommit s).Holds (fun _ t => Follows .wrCommit s t) (StopsIn .wrCommit s) := by
  unfold wrCommit
  cases unwireToStore s.buf with
  | none => exact .inl (breaksOff_refused _)
  | some bytes =>
    exact (storeWrite_performs s _ _ bytes).follows nofun (fun _ _ => ⟨rfl, rfl⟩) fun _ _ _ => rfl

/-- What one primitive of a transfer can do, in any phase and environment. -/
theorem xferStep_follows (b : Byte) (p : XferPhase) (s : State) :
    (xferStep b p s).Holds (fun _ t => Follows p s t) (StopsIn p s) := by
  cases p with
  | params =>
    exact recv_follows (p := .params) rfl (fun _ _ => ⟨rfl, rfl⟩) fun _ _ => rfl
  | setup =>
    exact (send_performs s _).follows (p := .setup) nofun (fun _ _ => ⟨rfl, rfl⟩)
      fun _ _ _ => rfl
  | ack =>
    refine (send_performs s _).follows (p := .ack) (f := fun _ => afterAck) nofun
      (fun _ => afterAck_keeps) fun _ u h => ?_
    rw [afterAck_phase, nextPhase, nextPhase, h.tr]
  | rdFetch =>
    exact (storeRead_performs s _ _ _).follows (p := .rdFetch) nofun (fun _ _ => ⟨rfl, rfl⟩)
      fun _ _ _ => rfl
  | rdSend => exact rdSend_follows s
  | rdDrain =>
    exact (drain_performs s).follows (p := .rdDrain) nofun (fun _ _ => ⟨rfl, rfl⟩)
      fun _ _ _ => rfl
  | rdFinal =>
    exact (send_performs s _).follows (p := .rdFinal) nofun (fun _ _ => ⟨rfl, rfl⟩)
      fun _ _ _ => rfl
  | wrRecv =>
    exact recv_follows (p := .wrRecv) rfl (fun _ _ => ⟨rfl, rfl⟩) fun _ _ => rfl
  | wrDrain =>
    exact (drain_performs s).follows (p := .wrDrain) nofun (fun _ _ => ⟨rfl, rfl⟩)
      fun _ _ _ => rfl
  | wrPad =>
    exact ⟨fun _ => by simp, fun h => absurd rfl h, rfl, fun he => by simp [he]⟩
  | wrAck =>
    refine (send_performs s _).follows (p := .wrAck) (f := fun _ => afterWrAck) nofun
      (fun _ => afterWrAck_keeps) fun _ u h => ?_
    rw [afterWrAck_phase, nextPhase, nextPhase, h.desync]
  | wrCommit => exact wrCommit_follows s
  | wrFlush =>
    exact (storeFlush_performs s _).follows (p := .wrFlush) nofun (fun _ _ => ⟨rfl, rfl⟩)
      fun _ _ _ => rfl

theorem follows_of_ok {b : Byte} {a : Unit} {t : State} (h : xferStep b p s = .ok a t) :
    Follows p s t := by
  have := xferStep_follows b p s
  rwa [h] at this

end

/-- Settles O43: `xferStep_follows`, whose `nextPhase` is the statement's table. -/
theorem primitivesInOrder : Obligations.PrimitivesInOrder := by
  intro b p s t h
  have hf := follows_of_ok h
  refine ⟨hf.pad, hf.event, hf.phase.trans ?_⟩
  cases p <;> rfl

/-! ## Where a transfer is split by a wait does not matter (10_state.md R31)

Without moves of the environment a run stops inside a transfer only where it waits, before its first
drain. Up to there more bytes at the end of the queue change nothing but the queue; from there the
run is the same, with fuel to spare in both. -/

/-- The most primitives a transfer has left in a phase, that phase's own counted. -/
def XferPhase.left : XferPhase → Nat
  | .params => 9
  | .setup => 8
  | .ack => 7
  | .wrRecv => 6
  | .wrDrain => 5
  | .wrPad | .rdFetch => 4
  | .wrAck | .rdSend => 3
  | .wrCommit | .rdDrain => 2
  | .wrFlush | .rdFinal => 1

/-- The phases that have a `Recv` ahead. -/
def XferPhase.mayWait : XferPhase → Bool
  | .params | .setup | .ack | .wrRecv => true
  | _ => false

/-- More bytes at the end of the receive queue. -/
def State.queued (s : State) (bs : List Byte) : State := s.withRxq (s.rxq ++ bs)

theorem left_le_xferLength (p : XferPhase) : p.left ≤ xferLength := by cases p <;> decide

theorem left_pos (p : XferPhase) : 0 < p.left := by cases p <;> decide

theorem mayWait_of_isWait {p : XferPhase} (h : (Phase.xfer p).isWait = true) :
    p.mayWait = true := by
  cases p <;> first | rfl | cases h

/-- From phase `p` the procedure ends, or goes on in a phase with fewer primitives left, and with no
`Recv` ahead that was not ahead in `p`. -/
def XferPhase.LeadsTo (p : XferPhase) (f : Phase) : Prop :=
  f = .idle ∨ ∃ q, f = .xfer q ∧ q.left < p.left ∧ (q.mayWait = true → p.mayWait = true)

theorem leadsTo_xfer {p q : XferPhase} (hl : q.left < p.left)
    (hw : q.mayWait = true → p.mayWait = true) : p.LeadsTo (.xfer q) := .inr ⟨q, rfl, hl, hw⟩

theorem leadsTo_idle (p : XferPhase) : p.LeadsTo .idle := .inl rfl

/-- The procedure goes forward: it has no loop, and no `Recv` after a drain. -/
theorem leadsTo_nextPhase (s : State) (p : XferPhase) : p.LeadsTo (nextPhase s p) := by
  cases p with
  | params | setup | rdFetch | rdSend | rdDrain | wrRecv | wrDrain | wrPad | wrCommit =>
    exact leadsTo_xfer (by decide) (by decide)
  | ack =>
    rw [nextPhase]
    split
    · split
      · exact leadsTo_xfer (by decide) (by decide)
      · exact leadsTo_xfer (by decide) (by decide)
    · exact leadsTo_idle _
  | wrAck =>
    rw [nextPhase]
    split
    · exact leadsTo_idle _
    · exact leadsTo_xfer (by decide) (by decide)
  | rdFinal | wrFlush => exact leadsTo_idle _

section
variable {b : Byte} {s t u : State} {p q : XferPhase} {n m : Nat}

/-- The phase after a primitive that is done. -/
theorem leadsTo_of_ok (h : xferStep b p s = .ok () u) : p.LeadsTo u.phase :=
  (follows_of_ok h).phase ▸ leadsTo_nextPhase s p

/-- Fuel beyond what a phase has left changes nothing. -/
theorem xferRun_fuel (hp : s.phase = .xfer p) (hn : p.left ≤ n) (hm : p.left ≤ m) :
    xferRun b n s = xferRun b m s := by
  induction n generalizing m s p with
  | zero => exact absurd hn (Nat.not_le_of_lt (left_pos p))
  | succ n ih =>
    cases m with
    | zero => exact absurd hm (Nat.not_le_of_lt (left_pos p))
    | succ m =>
      rw [xferRun_xfer hp, xferRun_xfer hp]
      cases hx : xferStep b p s with
      | stop o => rfl
      | ok a u =>
        rw [Attempt.ok_andThen, Attempt.ok_andThen]
        rcases leadsTo_of_ok hx with hu | ⟨q, hu, hq, -⟩
        · rw [xferRun_idle hu, xferRun_idle hu]
        · exact ih hu (by omega) (by omega)

/-- An environment without moves brings nothing. -/
theorem advance_of_env_nil (h : s.env = []) : s.advance = s := by
  cases s
  simp only at h
  subst h
  simp [State.advance, headArrive, headCancel]

/-- Undisturbed, a primitive that stops inside a transfer waits with nothing changed. -/
theorem waits_of_stop (he : s.env = []) (h : xferStep b p s = .stop (.next t))
    (ht : t.phase = .xfer q) : t = s ∧ p.mayWait = true := by
  have hs := xferStep_follows b p s
  rw [h] at hs
  rcases hs with hs | ⟨hs, hw⟩
  · obtain ⟨info, hi⟩ := hs t rfl
    rw [ht] at hi
    cases hi
  · cases hs
    exact ⟨advance_of_env_nil he, mayWait_of_isWait hw⟩

theorem queued_phase (s : State) (bs : List Byte) : (s.queued bs).phase = s.phase := rfl
theorem queued_rxq (s : State) (bs : List Byte) : (s.queued bs).rxq = s.rxq ++ bs := rfl

theorem failNow_of_env_nil (h : s.env = []) : s.failNow = none := by
  rw [State.failNow, h]; rfl

/-- A `Recv` that finds its bytes leaves those queued after them alone. -/
theorem recv_queued {bs : List Byte} (he : s.env = []) (h : recv n s = .ok bs u)
    (more : List Byte) : recv n (s.queued more) = .ok bs (u.queued more) := by
  have hs := advance_of_env_nil he
  have hq : (s.queued more).advance = s.queued more := advance_of_env_nil he
  have hn : n ≤ s.rxq.length := by
    by_contra hlt
    rw [recv_waits (failNow_of_env_nil he) (by rw [hs]; omega)] at h
    cases h
  have hlong : n ≤ (s.queued more).advance.rxq.length := by
    rw [hq, queued_rxq, List.length_append]; omega
  rw [recv_ok (failNow_of_env_nil he) (by rwa [hs]), hs] at h
  cases h
  rw [recv_ok (s := s.queued more) (failNow_of_env_nil he) hlong, hq, queued_rxq,
    List.take_append_of_le_length hn, List.drop_append_of_le_length hn]
  rfl

/-- A `Send` does not look at the queue. -/
theorem send_queued {bs : List Byte} (he : s.env = []) (h : send bs s = .ok () u)
    (more : List Byte) : send bs (s.queued more) = .ok () (u.queued more) := by
  rw [send_ok _ (failNow_of_env_nil he), advance_of_env_nil he] at h
  cases h
  rw [send_ok (s := s.queued more) _ (failNow_of_env_nil he),
    advance_of_env_nil (s := s.queued more) he]
  rfl

theorem afterAck_queued (s : State) (more : List Byte) :
    afterAck (s.queued more) = (afterAck s).queued more := by
  cases hok : s.tr.ok with
  | false => rw [afterAck_rejected hok, afterAck_rejected (s := s.queued more) hok]; rfl
  | true =>
    cases hd : s.tr.dir with
    | read => rw [afterAck_read hok hd, afterAck_read (s := s.queued more) hok hd]; rfl
    | write => rw [afterAck_write hok hd, afterAck_write (s := s.queued more) hok hd]; rfl

/-- A sequence is done when its parts are. -/
theorem Attempt.andThen_eq_ok {α β : Type} {x : Attempt β} {f : β → State → Attempt α} {a : α}
    {t : State} : x.andThen f = .ok a t ↔ ∃ c v, x = .ok c v ∧ f c v = .ok a t := by
  cases x <;> simp

/-- Before the last `Recv`, a primitive that is done is done with more bytes queued too, and leaves
them queued. -/
theorem xferStep_queued (he : s.env = []) (hw : p.mayWait = true) (h : xferStep b p s = .ok () u)
    (more : List Byte) : xferStep b p (s.queued more) = .ok () (u.queued more) := by
  cases p with
  | params =>
    obtain ⟨bs, v, hv, hu⟩ := Attempt.andThen_eq_ok.1 h
    cases hu
    exact Attempt.andThen_eq_ok.2 ⟨bs, _, recv_queued he hv more, rfl⟩
  | setup =>
    obtain ⟨_, v, hv, hu⟩ := Attempt.andThen_eq_ok.1 h
    cases hu
    exact Attempt.andThen_eq_ok.2 ⟨(), _, send_queued he hv more, rfl⟩
  | ack =>
    obtain ⟨_, v, hv, hu⟩ := Attempt.andThen_eq_ok.1 h
    cases hu
    exact Attempt.andThen_eq_ok.2 ⟨(), _, send_queued he hv more,
      congrArg (Attempt.ok ()) (afterAck_queued v more)⟩
  | wrRecv =>
    obtain ⟨bs, v, hv, hu⟩ := Attempt.andThen_eq_ok.1 h
    cases hu
    exact Attempt.andThen_eq_ok.2 ⟨bs, _, recv_queued he hv more, rfl⟩
  | _ => cases hw

/-- An undisturbed run that ends inside a transfer has a `Recv` ahead at its start, and going on
from its end with more bytes queued is the run from its start with them queued. -/
theorem xferRun_queued (he : s.env = []) (hp : s.phase = .xfer p) (hn : p.left ≤ n)
    (h : (xferRun b n s).outcome = .next t) (ht : t.phase = .xfer q) (hm : q.left ≤ m)
    (more : List Byte) :
    p.mayWait = true ∧ xferRun b m (t.queued more) = xferRun b n (s.queued more) := by
  induction n generalizing s p with
  | zero => exact absurd hn (Nat.not_le_of_lt (left_pos p))
  | succ n ih =>
    rw [xferRun_xfer hp] at h
    cases hx : xferStep b p s with
    | stop o =>
      rw [hx, Attempt.stop_andThen, Attempt.stop_outcome] at h
      subst h
      obtain ⟨rfl, hw⟩ := waits_of_stop he hx ht
      obtain rfl : p = q := by rw [hp] at ht; cases ht; rfl
      exact ⟨hw, xferRun_fuel (s := t.queued more) hp hm hn⟩
    | ok a u =>
      rw [hx, Attempt.ok_andThen] at h
      rcases leadsTo_of_ok hx with hu | ⟨p', hu, hlt, hback⟩
      · rw [xferRun_idle hu, Attempt.ok_outcome] at h
        cases h
        rw [hu] at ht
        cases ht
      · obtain ⟨hw', hrun⟩ := ih ((follows_of_ok hx).env he) hu (by omega) h
        have hw := hback hw'
        refine ⟨hw, hrun.trans ?_⟩
        rw [xferRun_xfer (s := s.queued more) hp, xferStep_queued he hw hx more,
          Attempt.ok_andThen]

/-- Entering a transfer, or staying in it, does not look at the queue. -/
theorem enterXfer_queued (s : State) (more : List Byte) :
    enterXfer (s.queued more) = (enterXfer s).queued more := by
  unfold enterXfer
  rw [queued_phase]
  split <;> rfl

/-- The state a transfer is taken up in: inside the transfer, with the moves left as they were. -/
theorem enterXfer_inside (s : State) :
    (∃ p, (enterXfer s).phase = .xfer p) ∧ (enterXfer s).env = s.env := by
  unfold enterXfer
  split
  next p hp => exact ⟨⟨p, hp⟩, rfl⟩
  next => exact ⟨⟨.params, rfl⟩, rfl⟩

end

/-- Settles O42: the whole transfer is one such run, taken up again with full fuel. -/
theorem waitingIsInvisible : Obligations.WaitingIsInvisible := by
  intro i s t q bs hi he h ht
  show exec i (t.queued bs) = exec i (s.queued bs)
  rw [exec_transfer hi] at h ⊢
  obtain ⟨⟨p, hp⟩, henv⟩ := enterXfer_inside s
  obtain ⟨-, hrun⟩ := xferRun_queued (henv.trans he) hp (left_le_xferLength p) h ht
    (left_le_xferLength q) bs
  rw [exec_transfer hi, transfer, transfer, enterXfer_queued, enterXfer_queued,
    enterXfer_xfer ht, hrun]

end Sys2Proof.Machine

/-! ## The bytes of a store (20_memory.md R79, R81, R82, R91) -/

namespace Sys2Proof.Machine

/-- Bytes read at the offset they were just written to (R91): none of them is a draw. -/
theorem Store.readBytes_writeBytes {st : Store} (h : st.wf) (off : Nat) (bs : List Byte)
    (draws : Nat) : (st.writeBytes off bs).readBytes off bs.length draws = bs := by
  refine List.ext_getElem (Store.length_readBytes ..) fun i _ hi => ?_
  have hne : bs ≠ [] := List.ne_nil_of_length_pos (Nat.zero_lt_of_lt hi)
  simp [Store.readBytes, Store.byteAt_writeBytes h off hne, hi]

/-- A write leaves the bytes below the old end alone, but for its own range (R82). -/
theorem Store.byteAt_writeBytes_outside {st : Store} (h : st.wf) {off a : Nat} {bs : List Byte}
    (ha : a < st.len) (hout : ¬(off ≤ a ∧ a < off + bs.length)) :
    (st.writeBytes off bs).byteAt a = st.byteAt a := by
  by_cases hbs : bs = []
  · rw [hbs, Store.writeBytes_nil]
  · rw [Store.byteAt_writeBytes h off hbs, if_neg hout, if_pos ha]

/-- Settles O45. -/
theorem storeReadSeesLastWrite : Obligations.StoreReadSeesLastWrite :=
  fun _ off bs draws h =>
    ⟨Store.readBytes_writeBytes h off bs draws, fun _ => Store.byteAt_writeBytes_outside h⟩

/-- The byte a read gives at each place: the stored byte below the end, a draw past it (R81). -/
theorem Store.getElem?_readBytes (st : Store) (off draws : Nat) {n i : Nat} (hi : i < n) :
    (st.readBytes off n draws)[i]? =
      some ((st.byteAt (off + i)).getD (Config.eofFill (draws + i))) := by
  simp [Store.readBytes, hi]

/-- Settles O46, by the two cases of `Store.byteAt`. -/
theorem readPastEndIsDrawn : Obligations.ReadPastEndIsDrawn := by
  refine fun st off n draws => ⟨st.length_readBytes off n draws, fun i hi => ?_⟩
  rw [Store.getElem?_readBytes st off draws hi, Store.byteAt]
  split
  next => rfl
  next => rfl

/-- R216 in PAGE mode: only the side counts. -/
theorem blockOffset_page {cfg : Cfg} (h : cfg.mode = .page) (side : BitVec 1) (sub : BitVec 3) :
    blockOffset cfg side sub = side.toNat * cfg.numberOfBlocks := by
  simp only [blockOffset, h]

/-- R216 in FIXED mode: the sub-unit counts, and the side when `FIXED_SIDE_OFFSET` says so. -/
theorem blockOffset_fixed {cfg : Cfg} (h : cfg.mode = .fixed) (side : BitVec 1) (sub : BitVec 3) :
    blockOffset cfg side sub =
      (if cfg.fixedSideOffset then side.toNat * cfg.numberOfBlocks else 0) + sub.toNat * 512 := by
  simp only [blockOffset, h, Config.subUnitBlocks]

/-- Settles O26: the resolver's offset is `blockOffset` of the request's own side and sub-unit. -/
theorem blockOffsetFormula : Obligations.BlockOffsetFormula := by
  rintro cfg units b w tr rfl
  have hoff : (resolve cfg units b w).blockOffset =
      blockOffset cfg (resolve cfg units b w).side (resolve cfg units b w).subUnit := rfl
  rw [hoff]
  refine ⟨fun hm => blockOffset_page hm _ _, fun hm hs => ?_, fun hm hs => ?_, ?_⟩
  · rw [blockOffset_fixed hm, if_pos hs]
  · rw [blockOffset_fixed hm, if_neg (by simp [hs]), Nat.zero_add]
  · rw [transferOffset, hoff]; rfl

end Sys2Proof.Machine

/-! ## Relations that a whole procedure keeps

A relation between the state a procedure begins in and the state it leaves is shown for each
primitive, for every environment, and composed along the procedures once, here. `R` is the relation
where a primitive is done, `Q` where the procedure stops. -/

namespace Sys2Proof.Machine

/-- The outcome's next state, if it has one, is in `P`. -/
def NextIn (P : State → Prop) (o : Host.Outcome State Fault Refusal) : Prop :=
  ∀ t, o = .next t → P t

theorem nextIn_next {P : State → Prop} {t : State} (h : P t) : NextIn P (.next t) := by
  rintro _ ⟨⟩
  exact h

theorem nextIn_fault {P : State → Prop} (f : Fault) : NextIn P (.fault f) := by
  rintro _ ⟨⟩

theorem nextIn_refused {P : State → Prop} (r : Refusal) : NextIn P (.refused r) := by
  rintro _ ⟨⟩

/-- The attempt is done within `R` of `s`, or stops within `Q` of `s`. -/
def Attempt.Within {α : Type} (R Q : State → State → Prop) (s : State) (x : Attempt α) : Prop :=
  x.Holds (fun _ t => R s t) (NextIn (Q s))

/-- The relations go on along a procedure: `R` from one primitive to the next, and then to where it
stops. -/
structure Composes (R Q : State → State → Prop) : Prop where
  refl : ∀ s, R s s
  trans : ∀ {s t r}, R s t → R t r → R s r
  stop : ∀ {s t r}, R s t → Q t r → Q s r
  done : ∀ {s t}, R s t → Q s t

/-- Where nothing is lost at a stop, one preorder serves for both. -/
theorem Composes.of_preorder {R : State → State → Prop} (refl : ∀ s, R s s)
    (trans : ∀ {s t r}, R s t → R t r → R s r) : Composes R R := ⟨refl, trans, trans, id⟩

/-- The relations allow what an orderly shutdown does (R184, R320). -/
structure AdmitsShutdown (R Q : State → State → Prop) : Prop extends Composes R Q where
  flush : ∀ s u, (storeFlush u s).Within R Q s
  close : ∀ s u, (storeClose u s).Within R Q s
  phase : ∀ s p, R s (s.withPhase p)
  powerOff : ∀ s, R s (s.record .powerOff)
  halt : ∀ s r, R s (halt r s)

/-- The relations allow what the two boot commands do (R270, R272). -/
structure AdmitsBoot (R Q : State → State → Prop) : Prop extends Composes R Q where
  send : ∀ s bs, (send bs s).Within R Q s
  read : ∀ s u off n, (storeRead u off n s).Within R Q s
  phase : ∀ s p, R s (s.withPhase p)
  buf : ∀ s bs, R s (s.withBuf bs)

/-- The relations allow what a transfer does (R176): its primitives, and the writing of its own
registers. -/
structure AdmitsTransfer (R Q : State → State → Prop) : Prop extends Composes R Q where
  recv : ∀ s n, (recv n s).Within R Q s
  send : ∀ s bs, (send bs s).Within R Q s
  drain : ∀ s, (drain s).Within R Q s
  read : ∀ s u off n, (storeRead u off n s).Within R Q s
  write : ∀ s u off bs, (storeWrite u off bs s).Within R Q s
  flush : ∀ s u, (storeFlush u s).Within R Q s
  registers : ∀ s p w tr buf d,
    R s { s with phase := p, w := w, tr := tr, buf := buf, desync := d }

section
variable {R Q : State → State → Prop} {α β : Type} {s t : State}

namespace Composes
variable (hc : Composes R Q)
include hc

theorem outcome {x : Attempt α} (hx : x.Within R Q s) : NextIn (Q s) x.outcome :=
  Attempt.holds_outcome (hx.mono (fun _ _ h => nextIn_next (hc.done h)) fun _ ho => ho)

theorem outcome_trans {o : Host.Outcome State Fault Refusal} (h : R s t)
    (ho : NextIn (Q t) o) : NextIn (Q s) o := fun r hr => hc.stop h (ho r hr)

theorem within_trans {x : Attempt α} (h : R s t) (hx : x.Within R Q t) : x.Within R Q s :=
  hx.mono (fun _ _ => hc.trans h) fun _ => hc.outcome_trans h

theorem andThen {x : Attempt β} {f : β → State → Attempt α} (hx : x.Within R Q s)
    (hf : ∀ b t, (f b t).Within R Q t) : (x.andThen f).Within R Q s :=
  (Attempt.holds_andThen x f).2 (hx.mono (fun b t h => hc.within_trans h (hf b t)) fun _ ho => ho)

/-- A primitive and then an update of the state. -/
theorem andThen_ok {x : Attempt β} {f : β → State → State} (hx : x.Within R Q s)
    (hf : ∀ b t, R t (f b t)) : (x.andThen fun b t => .ok () (f b t)).Within R Q s :=
  hc.andThen hx hf

end Composes

/-! ### Shutdown -/

namespace AdmitsShutdown
variable (h : AdmitsShutdown R Q)
include h

theorem closeUnit (u : UnitNo) (s : State) : (closeUnit u s).Within R Q s := by
  unfold Machine.closeUnit
  split
  · exact h.andThen (h.flush s u) fun _ t => h.close t u
  · exact h.refl s

theorem closeAll (s : State) : (closeAll s).Within R Q s :=
  h.andThen (h.closeUnit .u0 s) fun _ t => h.andThen (h.closeUnit .u1 t) fun _ t =>
    h.andThen (h.closeUnit .u2 t) fun _ t => h.closeUnit .u3 t

theorem cancelShutdown (s : State) : NextIn (Q s) (cancelShutdown s).outcome :=
  h.outcome (h.andThen_ok (h.closeAll s) fun _ t => h.halt t .cancel)

theorem powerOffIf (s : State) : R s (powerOffIf s) := by
  unfold Machine.powerOffIf
  split
  · exact h.powerOff s
  · exact h.refl s

theorem execQuit (s : State) : NextIn (Q s) (execQuit s) :=
  h.outcome_trans (h.phase s .quit) (h.outcome (h.andThen_ok (h.closeAll _) fun _ t =>
    h.trans (h.powerOffIf t) (h.halt _ .quit)))

end AdmitsShutdown

/-! ### The boot commands -/

namespace AdmitsBoot
variable (h : AdmitsBoot R Q)
include h

theorem execBootsect (s : State) : NextIn (Q s) (execBootsect s) := by
  refine h.outcome_trans (h.phase s .bootsect) (h.outcome ?_)
  refine h.andThen (h.read _ .u0 0 _) fun bs t => ?_
  cases storeToWire bs with
  | none => exact nextIn_refused _
  | some wire =>
    refine h.within_trans (h.buf t bs) ?_
    exact h.andThen (h.send _ wire) fun _ t => h.andThen_ok (h.send t _) fun _ t => h.phase t .idle

theorem execHelpboot (s : State) : NextIn (Q s) (execHelpboot s) := by
  refine h.outcome_trans (h.phase s .help) (h.outcome ?_)
  unfold bootstrapInject
  split
  · exact h.phase _ .idle
  · refine h.andThen (h.send _ _) fun _ t => h.andThen (h.send t _) fun _ t =>
      h.andThen (h.read t .u0 0 _) fun block t => ?_
    refine h.within_trans (h.buf t (bootPrefixBytes t.cfg block)) ?_
    exact h.andThen_ok (h.send _ _) fun _ t => h.phase t .idle

end AdmitsBoot

/-! ### Transfers -/

namespace AdmitsTransfer
variable (h : AdmitsTransfer R Q)
include h

theorem afterAck (s : State) : R s (afterAck s) := by
  unfold Machine.afterAck
  split
  · split
    · exact h.registers s _ _ _ _ _
    · exact h.registers s _ _ _ _ _
  · exact h.registers s _ _ _ _ _

theorem afterWrAck (s : State) : R s (afterWrAck s) := by
  unfold Machine.afterWrAck
  split
  · exact h.registers s _ _ _ _ _
  · exact h.registers s _ _ _ _ _

theorem padBuffer (s : State) : R s (padBuffer s) := by
  unfold Machine.padBuffer
  split
  · exact h.registers s _ _ _ _ _
  · exact h.refl s

theorem rdSend (s : State) : (rdSend s).Within R Q s := by
  unfold Machine.rdSend
  cases storeToWire s.buf with
  | none => exact nextIn_refused _
  | some wire => exact h.andThen_ok (h.send s wire) fun _ t => h.registers t _ _ _ _ _

theorem wrCommit (s : State) : (wrCommit s).Within R Q s := by
  unfold Machine.wrCommit
  cases unwireToStore s.buf with
  | none => exact nextIn_refused _
  | some bytes => exact h.andThen_ok (h.write s _ _ bytes) fun _ t => h.registers t _ _ _ _ _

theorem xferStep (b : Byte) (p : XferPhase) (s : State) : (xferStep b p s).Within R Q s := by
  cases p with
  | params => exact h.andThen_ok (h.recv s _) fun _ t => h.registers t _ _ _ _ _
  | setup => exact h.andThen_ok (h.send s _) fun _ t => h.registers t _ _ _ _ _
  | ack => exact h.andThen_ok (h.send s _) fun _ t => h.afterAck t
  | rdFetch => exact h.andThen_ok (h.read s _ _ _) fun _ t => h.registers t _ _ _ _ _
  | rdSend => exact h.rdSend s
  | rdDrain => exact h.andThen_ok (h.drain s) fun _ t => h.registers t _ _ _ _ _
  | rdFinal => exact h.andThen_ok (h.send s _) fun _ t => h.registers t _ _ _ _ _
  | wrRecv => exact h.andThen_ok (h.recv s _) fun _ t => h.registers t _ _ _ _ _
  | wrDrain => exact h.andThen_ok (h.drain s) fun _ t => h.registers t _ _ _ _ _
  | wrPad => exact h.trans (h.padBuffer s) (h.registers _ _ _ _ _ _)
  | wrAck => exact h.andThen_ok (h.send s _) fun _ t => h.afterWrAck t
  | wrCommit => exact h.wrCommit s
  | wrFlush => exact h.andThen_ok (h.flush s _) fun _ t => h.registers t _ _ _ _ _

theorem enterXfer (s : State) : R s (enterXfer s) := by
  unfold Machine.enterXfer
  split
  · exact h.refl s
  · exact h.registers s _ _ _ _ _

/-- The induction over a run is `xferRun_holds`. -/
theorem transfer (b : Byte) (s : State) : NextIn (Q s) (transfer b s) :=
  h.outcome (xferRun_holds (I := R s) (fun p t _ ht => h.within_trans ht (h.xferStep b p t))
    xferLength _ (h.enterXfer s))

end AdmitsTransfer

/-- A command's outcome is within `Q`, when the relations allow what it does. -/
theorem exec_within {i : Instr} (hx : i.isTransfer = true → AdmitsTransfer R Q)
    (hb : i = .helpboot ∨ i = .bootsect → AdmitsBoot R Q)
    (hs : i = .quit → AdmitsShutdown R Q)
    (hi : ∀ b, i = .ignored b → ∀ s, Q s s.goIdle) (s : State) : NextIn (Q s) (exec i s) := by
  cases ht : i.isTransfer with
  | true => rw [exec_transfer ht]; exact (hx ht).transfer _ s
  | false =>
    cases i with
    | helpboot => exact (hb (.inl rfl)).execHelpboot s
    | bootsect => exact (hb (.inr rfl)).execBootsect s
    | quit => exact (hs rfl).execQuit s
    | ignored b => exact nextIn_next (hi b rfl s)
    | _ => cases ht

end

end Sys2Proof.Machine

/-! ## What every command leaves unchanged (20_memory.md R92; 10_state.md R39, R40) -/

namespace Sys2Proof.Machine

/-- `CMD` and the open flags are as they were. -/
structure KeepsCommand (s t : State) : Prop where
  cmd : t.cmd = s.cmd
  isOpen : t.isOpen = s.isOpen

theorem KeepsCommand.of_updates {s t : State} (cmd : t.cmd = s.cmd := by simp)
    (isOpen : t.isOpen = s.isOpen := by simp) : KeepsCommand s t := ⟨cmd, isOpen⟩

theorem keepsCommand_composes : Composes KeepsCommand KeepsCommand :=
  .of_preorder (fun _ => .of_updates) fun h h' => ⟨h'.cmd.trans h.cmd, h'.isOpen.trans h.isOpen⟩

/-- Only closing a store touches the open flags. -/
theorem keepsCommand_transfer : AdmitsTransfer KeepsCommand KeepsCommand where
  toComposes := keepsCommand_composes
  recv _ _ := recv_rule (fun _ => nextIn_next .of_updates) (nextIn_next .of_updates)
    fun _ => KeepsCommand.of_updates
  send _ _ := send_rule (fun _ => nextIn_next .of_updates) KeepsCommand.of_updates
  drain _ := drain_rule (fun _ => nextIn_next .of_updates) KeepsCommand.of_updates
  read _ _ _ _ := storeRead_rule (fun _ => nextIn_fault _) (nextIn_next .of_updates)
    KeepsCommand.of_updates
  write _ _ _ _ := storeWrite_rule (fun _ => nextIn_fault _)
    (fun _ => nextIn_next .of_updates) KeepsCommand.of_updates
  flush _ _ := storeFlush_rule (fun _ => nextIn_fault _) (nextIn_next .of_updates)
    KeepsCommand.of_updates
  registers _ _ _ _ _ _ := KeepsCommand.of_updates

theorem keepsCommand_boot : AdmitsBoot KeepsCommand KeepsCommand where
  toComposes := keepsCommand_composes
  send := keepsCommand_transfer.send
  read := keepsCommand_transfer.read
  phase _ _ := .of_updates
  buf _ _ := .of_updates

/-- The trace goes on, with no store write recorded. -/
def RecordsNoWrite (s t : State) : Prop :=
  ∃ events, t.trace = s.trace ++ events ∧ ∀ u off bs, Event.storeWrite u off bs ∉ events

theorem RecordsNoWrite.of_eq {s t : State} (h : t.trace = s.trace) : RecordsNoWrite s t :=
  ⟨[], by simp [h], by simp⟩

theorem RecordsNoWrite.of_event {s t : State} {e : Event} (h : t.trace = s.trace ++ [e])
    (he : ∀ u off bs, Event.storeWrite u off bs ≠ e) : RecordsNoWrite s t :=
  ⟨[e], h, fun u off bs => by simpa using he u off bs⟩

theorem RecordsNoWrite.trans {s t r : State} (h : RecordsNoWrite s t) (h' : RecordsNoWrite t r) :
    RecordsNoWrite s r := by
  obtain ⟨es, he, hn⟩ := h
  obtain ⟨es', he', hn'⟩ := h'
  refine ⟨es ++ es', by rw [he', he, List.append_assoc], fun u off bs hm => ?_⟩
  exact (List.mem_append.1 hm).elim (hn u off bs) (hn' u off bs)

/-- The stores and the registers of a transfer are as they were, no queued byte is taken, and no
store write is recorded. -/
structure KeepsStores (s t : State) : Prop where
  trace : RecordsNoWrite s t
  stores : t.stores = s.stores
  w : t.w = s.w
  tr : t.tr = s.tr
  desync : t.desync = s.desync
  rxq : s.rxq <+: t.rxq

theorem KeepsStores.of_updates {s t : State} (trace : RecordsNoWrite s t)
    (stores : t.stores = s.stores := by simp) (w : t.w = s.w := by simp)
    (tr : t.tr = s.tr := by simp) (desync : t.desync = s.desync := by simp)
    (rxq : s.rxq <+: t.rxq := by simp) : KeepsStores s t := ⟨trace, stores, w, tr, desync, rxq⟩

theorem keepsStores_composes : Composes KeepsStores KeepsStores :=
  .of_preorder (fun _ => .of_updates (.of_eq rfl)) fun h h' =>
    ⟨h.trace.trans h'.trace, h'.stores.trans h.stores, h'.w.trans h.w, h'.tr.trans h.tr,
      h'.desync.trans h.desync, h.rxq.trans h'.rxq⟩

theorem keepsStores_boot : AdmitsBoot KeepsStores KeepsStores where
  toComposes := keepsStores_composes
  send _ _ := send_rule (fun _ => nextIn_next (.of_updates (.of_event rfl nofun)))
    (KeepsStores.of_updates (.of_event rfl nofun))
  read _ _ _ _ := storeRead_rule (fun _ => nextIn_fault _)
    (nextIn_next (.of_updates (.of_event rfl nofun)))
    (KeepsStores.of_updates (.of_event rfl nofun))
  phase _ _ := .of_updates (.of_eq rfl)
  buf _ _ := .of_updates (.of_eq rfl)

theorem keepsStores_shutdown : AdmitsShutdown KeepsStores KeepsStores where
  toComposes := keepsStores_composes
  flush _ _ := storeFlush_rule (fun _ => nextIn_fault _)
    (nextIn_next (.of_updates (.of_event rfl nofun)))
    (KeepsStores.of_updates (.of_event rfl nofun))
  close _ _ := storeClose_rule (fun _ => nextIn_fault _)
    (nextIn_next (.of_updates (.of_event rfl nofun)))
    (KeepsStores.of_updates (.of_event rfl nofun))
  phase _ _ := .of_updates (.of_eq rfl)
  powerOff _ := .of_updates (.of_event rfl nofun)
  halt _ _ := .of_updates (.of_event rfl nofun)

/-- `CMD`, and what was sent, buffered and drawn, are as they were. -/
structure KeepsOutput (s t : State) : Prop where
  cmd : t.cmd = s.cmd
  tx : t.tx = s.tx
  buf : t.buf = s.buf
  draws : t.draws = s.draws

theorem KeepsOutput.of_updates {s t : State} (cmd : t.cmd = s.cmd := by simp)
    (tx : t.tx = s.tx := by simp) (buf : t.buf = s.buf := by simp)
    (draws : t.draws = s.draws := by simp) : KeepsOutput s t := ⟨cmd, tx, buf, draws⟩

theorem keepsOutput_shutdown : AdmitsShutdown KeepsOutput KeepsOutput where
  toComposes := .of_preorder (fun _ => .of_updates) fun h h' =>
    ⟨h'.cmd.trans h.cmd, h'.tx.trans h.tx, h'.buf.trans h.buf, h'.draws.trans h.draws⟩
  flush _ _ := storeFlush_rule (fun _ => nextIn_fault _) (nextIn_next .of_updates)
    KeepsOutput.of_updates
  close _ _ := storeClose_rule (fun _ => nextIn_fault _) (nextIn_next .of_updates)
    KeepsOutput.of_updates
  phase _ _ := .of_updates
  powerOff _ := .of_updates
  halt _ _ := .of_updates

/-- No command but `QUIT` writes `CMD` or opens or closes a store. -/
theorem exec_keepsCommand {i : Instr} (hi : i ≠ .quit) (s : State) :
    NextIn (KeepsCommand s) (exec i s) :=
  exec_within (fun _ => keepsCommand_transfer) (fun _ => keepsCommand_boot)
    (fun h => absurd h hi) (fun _ _ _ => .of_updates) s

/-- A command that is no transfer leaves the stores and the queue alone. -/
theorem exec_keepsStores {i : Instr} (hi : i.isTransfer = false) (s : State) :
    NextIn (KeepsStores s) (exec i s) :=
  exec_within (fun h => by rw [hi] at h; cases h) (fun _ => keepsStores_boot)
    (fun _ => keepsStores_shutdown) (fun _ _ _ => .of_updates (.of_eq rfl)) s

/-- `QUIT` and `IGNORED` send, buffer and draw nothing. -/
theorem exec_keepsOutput {i : Instr} (hi : i.isTransfer = false) (hh : i ≠ .helpboot)
    (hb : i ≠ .bootsect) (s : State) : NextIn (KeepsOutput s) (exec i s) :=
  exec_within (fun h => by rw [hi] at h; cases h) (fun h => (h.elim hh hb).elim)
    (fun _ => keepsOutput_shutdown) (fun _ _ _ => .of_updates) s

/-- No command writes `CMD`. -/
theorem exec_cmd {i : Instr} {s t : State} (h : exec i s = .next t) : t.cmd = s.cmd := by
  by_cases hi : i = .quit
  · subst hi
    exact (exec_keepsOutput (i := .quit) rfl nofun nofun s t h).cmd
  · exact (exec_keepsCommand hi s t h).cmd

/-- Settles O17: what each kind of command keeps, put together. -/
theorem commandFrame : Obligations.CommandFrame := by
  intro i s t h
  have hg := exec_grows s i t h
  refine ⟨exec_cmd h, hg.cfg, hg.units, fun hi => (exec_keepsCommand hi s t h).isOpen,
    fun hi => ?_⟩
  have hk := exec_keepsStores hi s t h
  refine ⟨hk.stores, hk.w, hk.tr, hk.desync, hk.rxq, fun hh hb => ?_, hk.trace⟩
  have ho := exec_keepsOutput hi hh hb s t h
  exact ⟨ho.tx, ho.buf, ho.draws⟩

end Sys2Proof.Machine

/-! ## The trace explains what was sent (20_memory.md R70, R72) -/

namespace Sys2Proof.Machine

theorem sentBytes_append (l m : List Event) : sentBytes (l ++ m) = sentBytes l ++ sentBytes m := by
  induction l with
  | nil => rfl
  | cons e l ih => cases e <;> simp [sentBytes, ih]

/-- The bytes sent from `s` to `t` are those of the `Send` events recorded on the way. -/
def Explained (s t : State) : Prop :=
  ∃ events, t.trace = s.trace ++ events ∧ t.tx = s.tx ++ sentBytes events

/-- In `FATAL` a failing `Send` may have sent bytes that no event records (R311). -/
def ExplainedUnlessFatal (s t : State) : Prop :=
  Explained s t ∨ ∃ info, t.phase = .fatal info

theorem Explained.of_eq {s t : State} (htrace : t.trace = s.trace) (htx : t.tx = s.tx) :
    Explained s t := ⟨[], by simp [htrace], by simp [htx, sentBytes]⟩

theorem Explained.of_event {s t : State} {e : Event} (htrace : t.trace = s.trace ++ [e])
    (htx : t.tx = s.tx ++ sentBytes [e] := by simp [sentBytes]) : Explained s t :=
  ⟨[e], htrace, htx⟩

theorem Explained.trans {s t r : State} (h : Explained s t) (h' : Explained t r) :
    Explained s r := by
  obtain ⟨es, he, hx⟩ := h
  obtain ⟨es', he', hx'⟩ := h'
  exact ⟨es ++ es', by rw [he', he, List.append_assoc],
    by rw [hx', hx, sentBytes_append, List.append_assoc]⟩

/-- Where the trace explained what was sent, it still does. -/
theorem Explained.keep {s t : State} (h : Explained s t) (hs : sentBytes s.trace = s.tx) :
    sentBytes t.trace = t.tx := by
  obtain ⟨es, he, hx⟩ := h
  rw [he, hx, sentBytes_append, hs]

theorem explained_composes : Composes Explained ExplainedUnlessFatal where
  refl _ := .of_eq rfl rfl
  trans := Explained.trans
  stop h h' := h'.imp_left h.trans
  done := .inl

theorem explained_fatal (q : Primitive) (u : Option UnitNo) (s t : State) :
    NextIn (ExplainedUnlessFatal s) (.next (raiseFatal q u t)) :=
  nextIn_next (.inr ⟨⟨q, u⟩, rfl⟩)

theorem explained_transfer : AdmitsTransfer Explained ExplainedUnlessFatal where
  toComposes := explained_composes
  recv _ _ := recv_rule (fun _ => explained_fatal _ _ _ _)
    (nextIn_next (.inl (.of_eq rfl rfl))) fun _ => Explained.of_event rfl
  send _ _ := send_rule (fun _ => explained_fatal _ _ _ _) (Explained.of_event rfl)
  drain _ := drain_rule (fun _ => explained_fatal _ _ _ _) (Explained.of_event rfl)
  read _ _ _ _ := storeRead_rule (fun _ => nextIn_fault _) (explained_fatal _ _ _ _)
    (Explained.of_event rfl)
  write _ _ _ _ := storeWrite_rule (fun _ => nextIn_fault _)
    (fun _ => explained_fatal _ _ _ _) (Explained.of_event rfl)
  flush _ _ := storeFlush_rule (fun _ => nextIn_fault _) (explained_fatal _ _ _ _)
    (Explained.of_event rfl)
  registers _ _ _ _ _ _ := .of_eq rfl rfl

theorem explained_boot : AdmitsBoot Explained ExplainedUnlessFatal where
  toComposes := explained_composes
  send := explained_transfer.send
  read := explained_transfer.read
  phase _ _ := .of_eq rfl rfl
  buf _ _ := .of_eq rfl rfl

theorem explained_shutdown : AdmitsShutdown Explained ExplainedUnlessFatal where
  toComposes := explained_composes
  flush := explained_transfer.flush
  close _ _ := storeClose_rule (fun _ => nextIn_fault _) (explained_fatal _ _ _ _)
    (Explained.of_event rfl)
  phase _ _ := .of_eq rfl rfl
  powerOff _ := .of_event rfl
  halt _ _ := .of_event rfl

/-- A command records what it sends, unless it ends in `FATAL`. -/
theorem exec_explained (i : Instr) (s : State) :
    NextIn (ExplainedUnlessFatal s) (exec i s) :=
  exec_within (fun _ => explained_transfer) (fun _ => explained_boot)
    (fun _ => explained_shutdown) (fun _ _ _ => .inl (.of_eq rfl rfl)) s

theorem step_explained_of_idle {s : State} (hp : s.phase = .idle) :
    NextIn (ExplainedUnlessFatal s) (step s) := by
  have hmove : Explained s s.advance := .of_eq rfl rfl
  rcases fetchCommand_cases s with ⟨-, hf⟩ | ⟨-, -, hf⟩ | ⟨b, rest, k, -, -, -, hf⟩ |
    ⟨b, rest, -, -, -, hf⟩
  · rw [step_idle_stop hp hf]
    exact explained_composes.outcome_trans hmove (explained_shutdown.cancelShutdown _)
  · rw [step_idle_stop hp hf]
    exact nextIn_next (.inl hmove)
  · rw [step_idle_stop hp hf]
    exact explained_fatal _ _ _ _
  · rw [step_idle_ok hp hf]
    exact explained_composes.outcome_trans (.of_event rfl) (exec_explained _ _)

theorem step_explained {s : State} (hp : s.phase ≠ .reset) :
    NextIn (ExplainedUnlessFatal s) (step s) := by
  cases hs : s.phase with
  | reset => exact absurd hs hp
  | idle => exact step_explained_of_idle hs
  | xfer p => rw [step_xfer hs]; exact exec_explained _ s
  | bootsect | help | quit => simp only [step, hs]; exact exec_explained _ s
  | refused | halted r | fatal i => simp only [step, hs]; exact nextIn_fault _

/-- Settles O59: a step that does not end in `FATAL` records what it sends. -/
theorem traceExplainsTransmit : Obligations.TraceExplainsTransmit := by
  intro s t hp hs h hfatal
  rcases step_explained hp t h with he | ⟨info, hi⟩
  · exact he.keep hs
  · exact absurd hi (hfatal info)

end Sys2Proof.Machine

/-! ## Which bytes of the stores a transfer changes (20_memory.md R79, R82; 43_executors.md R257) -/

namespace Sys2Proof.Machine

/-- Of the stores `before`, nothing reads differently in `after` but the blocks of the accepted
write `tr`, and the gap below them that a growing store leaves, which reads as zero. -/
def OnlyBlocksChange (tr : TransferRequest) (before after : PerUnit Store) : Prop :=
  ∀ u a,
    ¬(u = tr.unit ∧ tr.dir = .write ∧ tr.ok = true ∧
      transferOffset tr ≤ a ∧ a < transferOffset tr + 512 * ceil2 tr.pageCount) →
    (after.get u).byteAt a = (before.get u).byteAt a ∨
      (u = tr.unit ∧ tr.dir = .write ∧ tr.ok = true ∧ a < transferOffset tr ∧
        (before.get u).byteAt a = none ∧ (after.get u).byteAt a = some 0#8)

/-- `tr` is a write that the checks let through. -/
def TransferRequest.AcceptedWrite (tr : TransferRequest) : Prop := tr.dir = .write ∧ tr.ok = true

/-- An accepted write commits whole blocks: the padded data has the blocks' length (R257). -/
def TransferRequest.WholeBlocks (tr : TransferRequest) : Prop :=
  tr.AcceptedWrite → ∀ data : List Byte, data.length = tr.totalBytes →
    (paddedData tr data).length = 512 * ceil2 tr.pageCount

section
variable {tr : TransferRequest} {st : PerUnit Store}

theorem OnlyBlocksChange.refl (tr : TransferRequest) (st : PerUnit Store) :
    OnlyBlocksChange tr st st := fun _ _ _ => .inl rfl

/-- Bytes written from the transfer's offset, no more than its blocks hold, change its blocks only:
also the part of them that a failing write leaves (R311). -/
theorem onlyBlocksChange_write (hw : tr.AcceptedWrite) (hst : ∀ v, (st.get v).wf) {bs : List Byte}
    (hlen : bs.length ≤ 512 * ceil2 tr.pageCount) :
    OnlyBlocksChange tr st
      (st.set tr.unit ((st.get tr.unit).writeBytes (transferOffset tr) bs)) := by
  obtain ⟨hdir, hok⟩ := hw
  intro u a hout
  by_cases hu : u = tr.unit
  · subst hu
    rw [PerUnit.get_set_same]
    by_cases hbs : bs = []
    · rw [hbs, Store.writeBytes_nil]
      exact .inl rfl
    · have hrange : ¬(transferOffset tr ≤ a ∧ a < transferOffset tr + bs.length) :=
        fun ⟨hlo, hhi⟩ => hout ⟨rfl, hdir, hok, hlo, by omega⟩
      rw [Store.byteAt_writeBytes (hst _) _ hbs, if_neg hrange]
      by_cases hold : a < (st.get tr.unit).len
      · rw [if_pos hold]
        exact .inl rfl
      · have hnone : (st.get tr.unit).byteAt a = none := if_neg hold
        rw [if_neg hold, hnone]
        by_cases hgap : a < transferOffset tr
        · rw [if_pos hgap]
          exact .inr ⟨rfl, hdir, hok, hgap, rfl, rfl⟩
        · rw [if_neg hgap]
          exact .inl rfl
  · rw [PerUnit.get_set_other _ hu]
    exact .inl rfl

end

/-! ### The invariant of a transfer's run -/

/-- What holds in each phase of the transfer `i` of the request `tr`, begun on the stores `st`: up
to the commit the stores are untouched, and the executor of a write works on an accepted one
only. -/
def FramedPhase (i : Instr) (tr : TransferRequest) (st : PerUnit Store) (s : State) :
    XferPhase → Prop
  | .params => s.stores = st ∧ s.request i = tr
  | .setup | .ack => s.stores = st ∧ s.tr = tr
  | .rdFetch | .rdSend | .rdDrain | .rdFinal => s.stores = st
  | .wrRecv => s.stores = st ∧ s.tr = tr ∧ tr.AcceptedWrite
  | .wrDrain | .wrPad =>
    s.stores = st ∧ s.tr = tr ∧ tr.AcceptedWrite ∧ s.buf.length = tr.totalBytes
  | .wrAck | .wrCommit =>
    s.stores = st ∧ s.tr = tr.padded ∧ tr.AcceptedWrite ∧
      s.buf.length = 512 * ceil2 tr.pageCount
  | .wrFlush => OnlyBlocksChange tr st s.stores

/-- The invariant of a run: `FramedPhase` in a phase of the transfer, and outside only what the
transfer leaves. -/
def Framed (i : Instr) (tr : TransferRequest) (st : PerUnit Store) (s : State) : Prop :=
  match s.phase with
  | .xfer p => FramedPhase i tr st s p
  | _ => OnlyBlocksChange tr st s.stores

/-- A next state's stores differ from `st` in the blocks of `tr` only. -/
abbrev FramedNext (tr : TransferRequest) (st : PerUnit Store) :
    Host.Outcome State Fault Refusal → Prop :=
  NextIn fun t => OnlyBlocksChange tr st t.stores

section
variable {i : Instr} {tr : TransferRequest} {st : PerUnit Store} {s : State}

theorem framedNext_of_eq {t : State} (h : t.stores = st) : FramedNext tr st (.next t) :=
  nextIn_next (h ▸ .refl tr _)

/-- A transfer is over with the stores as they were. -/
theorem framed_goIdle (h : s.stores = st) : Framed i tr st s.goIdle := h ▸ .refl tr s.stores

/-- A primitive of a transfer is done in a state of the invariant, or stops with the
stores framed. -/
abbrev StaysFramed (i : Instr) (tr : TransferRequest) (st : PerUnit Store) (x : Attempt Unit) :
    Prop := x.Holds (fun _ t => Framed i tr st t) (FramedNext tr st)

/-- A phase that sends, and then updates the state. -/
theorem send_framed {bs : List Byte} {f : State → State} (hst : s.stores = st)
    (hf : Framed i tr st (f ((s.advance.withTx (s.tx ++ bs)).record (.send bs)))) :
    StaysFramed i tr st ((send bs s).andThen fun _ t => .ok () (f t)) :=
  (Attempt.holds_andThen ..).2 (send_rule (fun _ => framedNext_of_eq hst) hf)

theorem xferParams_framed (hst : s.stores = st) (hr : s.request i = tr) :
    StaysFramed i tr st (xferParams (encodeCommand i) s) := by
  refine (Attempt.holds_andThen ..).2 (recv_rule (fun _ => framedNext_of_eq hst)
    (framedNext_of_eq hst) fun _ => ⟨hst, ?_⟩)
  rw [← hr, advance_rxq_arrived]
  rfl

/-- R176: the executor of a write is entered by an accepted one only. -/
theorem afterAck_framed (hst : s.stores = st) (hr : s.tr = tr) : Framed i tr st (afterAck s) := by
  cases hok : s.tr.ok with
  | false => rw [afterAck_rejected hok]; exact framed_goIdle hst
  | true =>
    cases hd : s.tr.dir with
    | read => rw [afterAck_read hok hd]; exact hst
    | write => rw [afterAck_write hok hd]; exact ⟨hst, hr, hr ▸ hd, hr ▸ hok⟩

theorem rdFetch_framed (hst : s.stores = st) : StaysFramed i tr st (rdFetch s) :=
  (Attempt.holds_andThen ..).2 (storeRead_rule (fun _ => nextIn_fault _)
    (framedNext_of_eq hst) hst)

theorem rdSend_framed (hst : s.stores = st) : StaysFramed i tr st (rdSend s) := by
  unfold rdSend
  cases storeToWire s.buf with
  | none => exact nextIn_refused _
  | some wire => exact send_framed (f := fun t => t.toXfer .rdDrain) hst hst

theorem drainCheck_framed {next : XferPhase} (hst : s.stores = st)
    (hnext : ∀ q e d, FramedPhase i tr st
      ((((s.advance.withRxq q).record e).withDesync d).toXfer next) next) :
    StaysFramed i tr st (drainCheck next s) :=
  (Attempt.holds_andThen ..).2 (drain_rule (fun _ => framedNext_of_eq hst) (hnext _ _ _))

theorem wrRecv_framed (hst : s.stores = st) (hr : s.tr = tr) (hw : tr.AcceptedWrite) :
    StaysFramed i tr st (wrRecv s) :=
  (Attempt.holds_andThen ..).2 (recv_rule (fun _ => framedNext_of_eq hst) (framedNext_of_eq hst)
    fun hn => ⟨hst, hr, hw, hr ▸ List.length_take_of_le hn⟩)

/-- R253: the pad makes whole blocks of the data. -/
theorem wrPad_framed (hblocks : tr.WholeBlocks) (hst : s.stores = st) (hr : s.tr = tr)
    (hw : tr.AcceptedWrite) (hb : s.buf.length = tr.totalBytes) :
    StaysFramed i tr st (wrPad s) := by
  refine ⟨(padBuffer_stores s).trans hst, ?_, hw, ?_⟩
  · rw [toXfer_tr, padBuffer_tr, hr]
  · rw [toXfer_buf, padBuffer_buf, hr, hblocks hw _ hb]

/-- R255: a write commits, or is over. -/
theorem afterWrAck_framed (h : FramedPhase i tr st s .wrCommit) :
    Framed i tr st (afterWrAck s) := by
  cases hd : s.desync with
  | true => rw [afterWrAck_desync hd]; exact framed_goIdle h.1
  | false => rw [afterWrAck_commit hd]; exact h

/-- R256: the one write, of the transfer's own blocks, whole or in part (R311). -/
theorem wrCommit_framed (hwf : ∀ v, (st.get v).wf) (hst : s.stores = st) (hr : s.tr = tr.padded)
    (hw : tr.AcceptedWrite) (hb : s.buf.length = 512 * ceil2 tr.pageCount) :
    StaysFramed i tr st (wrCommit s) := by
  obtain ⟨bytes, hbytes, hlen⟩ := unwireToStore_even (bs := s.buf) (by omega)
  have hwrite : ∀ bs : List Byte, bs.length ≤ bytes.length →
      OnlyBlocksChange tr st (s.writeStore s.tr.unit (transferOffset s.tr) bs).stores := by
    intro bs hbs
    rw [writeStore_stores, hst, hr, padded_unit, transferOffset_padded]
    exact onlyBlocksChange_write hw hwf (by omega)
  unfold wrCommit
  rw [hbytes]
  exact (Attempt.holds_andThen ..).2 (storeWrite_rule (fun _ => nextIn_fault _)
    (fun k => nextIn_next (hwrite _ (List.length_take_le' k bytes))) (hwrite _ (Nat.le_refl _)))

theorem wrFlush_framed (h : OnlyBlocksChange tr st s.stores) : StaysFramed i tr st (wrFlush s) :=
  (Attempt.holds_andThen ..).2 (storeFlush_rule (fun _ => nextIn_fault _)
    (nextIn_next h) h)

/-- Every primitive of a transfer keeps the invariant, whatever the environment does. -/
theorem xferStep_framed {p : XferPhase} (hwf : ∀ v, (st.get v).wf) (hblocks : tr.WholeBlocks)
    (h : FramedPhase i tr st s p) : StaysFramed i tr st (xferStep (encodeCommand i) p s) := by
  cases p with
  | params => exact xferParams_framed h.1 h.2
  | setup => exact send_framed (f := fun t => t.toXfer .ack) h.1 h
  | ack => exact send_framed (f := afterAck) h.1 (afterAck_framed h.1 h.2)
  | rdFetch => exact rdFetch_framed h
  | rdSend => exact rdSend_framed h
  | rdDrain => exact drainCheck_framed h fun _ _ _ => h
  | rdFinal => exact send_framed (f := State.goIdle) h (framed_goIdle h)
  | wrRecv =>
    obtain ⟨hst, hr, hw⟩ := h
    exact wrRecv_framed hst hr hw
  | wrDrain => exact drainCheck_framed h.1 fun _ _ _ => h
  | wrPad =>
    obtain ⟨hst, hr, hw, hb⟩ := h
    exact wrPad_framed hblocks hst hr hw hb
  | wrAck => exact send_framed (f := afterWrAck) h.1 (afterWrAck_framed h)
  | wrCommit =>
    obtain ⟨hst, hr, hw, hb⟩ := h
    exact wrCommit_framed hwf hst hr hw hb
  | wrFlush => exact wrFlush_framed h

/-- A state of the invariant has changed only the transfer's blocks. -/
theorem Framed.onlyBlocksChange (h : Framed i tr st s) : OnlyBlocksChange tr st s.stores := by
  have huntouched : s.stores = st → OnlyBlocksChange tr st s.stores := fun h => h ▸ .refl tr _
  unfold Framed at h
  split at h
  next p _ =>
    cases p with
    | rdFetch | rdSend | rdDrain | rdFinal => exact huntouched h
    | wrFlush => exact h
    | _ => exact huntouched h.1
  next => exact h

/-- A run from a state of the invariant. -/
theorem xferRun_framed (hwf : ∀ v, (st.get v).wf) (hblocks : tr.WholeBlocks) (n : Nat)
    (h : Framed i tr st s) : FramedNext tr st (xferRun (encodeCommand i) n s).outcome := by
  have hrun := xferRun_holds (b := encodeCommand i) (I := Framed i tr st) (Q := FramedNext tr st)
    (fun p t hp ht => xferStep_framed hwf hblocks (by unfold Framed at ht; rwa [hp] at ht)) n s h
  exact Attempt.holds_outcome
    (hrun.mono (fun _ _ ht => nextIn_next ht.onlyBlocksChange) fun _ ho => ho)

/-! ### Where a transfer is taken up -/

/-- A request that the resolver built commits whole blocks (R224, R257): put in `TR` with the
command and the parameters it was built of, it is `Accepted`. -/
theorem request_wholeBlocks (s : State) (i : Instr) : (s.request i).WholeBlocks := by
  rintro ⟨hd, hok⟩ data hlen
  exact Accepted.length_paddedData
    (s := ((s.withCmd (encodeCommand i)).withParams s.paramRegs).withRequest (s.request i))
    ⟨rfl, hok, hd⟩ hlen

theorem State.Serves.wholeBlocks (h : s.Serves i tr) : tr.WholeBlocks := by
  rcases h with ⟨-, rfl⟩ | ⟨hp, hs, rfl⟩
  · exact request_wholeBlocks s i
  · obtain ⟨-, ha, -⟩ := hs.inTransfer hp
    exact fun _ _ hlen => ha.length_paddedData hlen

/-- Begun or taken up, a transfer starts with the invariant. -/
theorem State.Serves.framed (h : s.Serves i tr) : Framed i tr s.stores (enterXfer s) := by
  rcases h with ⟨hp, rfl⟩ | ⟨hp, hs, rfl⟩
  · rw [enterXfer_atParams hp]
    exact ⟨rfl, rfl⟩
  · obtain ⟨-, ⟨-, hok, hd⟩, -⟩ := hs.inTransfer hp
    rw [enterXfer_xfer hp, Framed, hp]
    exact ⟨rfl, rfl, hd, hok⟩

end

/-- Settles O36: the invariant `Framed`, carried through the run. -/
theorem transferStoreFrame : Obligations.TransferStoreFrame := by
  intro i s t tr u a hi hserves hwf h
  rw [exec_transfer hi] at h
  exact xferRun_framed hwf hserves.wholeBlocks xferLength hserves.framed t h u a

end Sys2Proof.Machine

/-! ## The codec and the decoder as arithmetic and bit fields (30_encoding.md R105 to R113, R126) -/

namespace Sys2Proof.Machine

/-! ### The two layouts of a word -/

/-- A mask of the `k` low bits takes a remainder. -/
theorem toNat_and_lowMask {v : Nat} (x m : BitVec v) (k : Nat) (hm : m.toNat = 2 ^ k - 1) :
    (x &&& m).toNat = x.toNat % 2 ^ k := by
  rw [BitVec.toNat_and, hm, Nat.and_two_pow_sub_one_eq_mod]

/-- R105, R144: the two wire bytes of a word are its low and its high six bits. -/
theorem encodeControlWord_eq (w : Word12) : ∃ b0 b1 : Byte, encodeControlWord w = [b0, b1] ∧
    b0.toNat = w.toNat % 64 ∧ b1.toNat = w.toNat / 64 := by
  have hw := w.isLt
  refine ⟨_, _, rfl, ?_, ?_⟩
  · rw [BitVec.toNat_setWidth, toNat_and_lowMask w _ 6 rfl]
    omega
  · rw [BitVec.toNat_setWidth, toNat_and_lowMask _ _ 6 rfl, BitVec.toNat_ushiftRight,
      Nat.shiftRight_eq_div_pow]
    omega

/-- R107, R143: the two store bytes of a word are its low eight and its high four bits. -/
theorem storeEncode_eq (w : Word12) : ∃ s0 s1 : Byte, storeEncode w = [s0, s1] ∧
    s0.toNat = w.toNat % 256 ∧ s1.toNat = w.toNat / 256 := by
  have hw := w.isLt
  refine ⟨_, _, rfl, ?_, ?_⟩
  · rw [BitVec.toNat_setWidth, toNat_and_lowMask w _ 8 rfl]
    omega
  · rw [BitVec.toNat_setWidth, toNat_and_lowMask _ _ 4 rfl, BitVec.toNat_ushiftRight,
      Nat.shiftRight_eq_div_pow]
    omega

/-- Settles O3. -/
theorem wordLayouts : Obligations.WordLayouts :=
  fun w => ⟨encodeControlWord_eq w, storeEncode_eq w⟩

/-- R140: the word of a wire pair, of which only the low six bits of each byte count. -/
theorem toNat_decodeWireWord (b0 b1 : Byte) :
    (decodeWireWord b0 b1).toNat = b0.toNat % 64 + 64 * (b1.toNat % 64) := by
  have h0 : ((b0 &&& 0o77#8).setWidth 12).toNat = b0.toNat % 64 := by
    rw [BitVec.toNat_setWidth, toNat_and_lowMask b0 _ 6 rfl]
    omega
  have h1 : ((b1 &&& 0o77#8).setWidth 12 <<< 6).toNat = (b1.toNat % 64) <<< 6 := by
    rw [BitVec.toNat_shiftLeft, BitVec.toNat_setWidth, toNat_and_lowMask b1 _ 6 rfl,
      Nat.shiftLeft_eq, Nat.shiftLeft_eq]
    omega
  rw [decodeWireWord, BitVec.or_comm, BitVec.toNat_or, h0, h1,
    ← Nat.shiftLeft_add_eq_or_of_lt (Nat.mod_lt _ (by decide)), Nat.shiftLeft_eq]
  omega

/-- A word is read back from its wire pair. -/
theorem encodeControlWord_pair (w : Word12) :
    ∃ b0 b1, encodeControlWord w = [b0, b1] ∧ decodeWireWord b0 b1 = w := by
  obtain ⟨b0, b1, he, h0, h1⟩ := encodeControlWord_eq w
  refine ⟨b0, b1, he, BitVec.eq_of_toNat_eq ?_⟩
  rw [toNat_decodeWireWord, h0, h1]
  omega

end Sys2Proof.Machine

namespace Sys2Proof

/-! ### Bit fields of a word -/

section
variable {l s t n : Nat}

/-- The bits that a mask keeps are read through it. -/
theorem extractLsb'_and_mask {v : Nat} (w m : BitVec v) (h : m.extractLsb' s l = BitVec.allOnes l) :
    (w &&& m).extractLsb' s l = w.extractLsb' s l := by
  rw [BitVec.extractLsb'_and, h, BitVec.and_allOnes]

/-- A field placed at bit `s` is read back from there. -/
theorem extractLsb'_field (x : BitVec l) (h : s + l ≤ 12) :
    (x.setWidth 12 <<< s).extractLsb' s l = x := by
  ext i hi
  have hlt : s + i < 12 ∧ i < 12 := by omega
  simp [hlt, BitVec.getLsbD_eq_getElem hi]

/-- A field placed at bit `s` leaves the bits below and above it clear. -/
theorem extractLsb'_field_disjoint (x : BitVec l) (h : t + n ≤ s ∨ s + l ≤ t) :
    (x.setWidth 12 <<< s).extractLsb' t n = 0#n := by
  ext i hi
  have hout : t + i < s ∨ s + l ≤ t + i := by omega
  rcases hout with hbelow | habove
  · simp [Nat.not_le.2 hbelow]
  · simp [BitVec.getLsbD_of_ge x (t + i - s) (by omega)]

/-- The field at bit 0 is read back from there. -/
theorem extractLsb'_low (x : BitVec l) (h : l ≤ 12) : (x.setWidth 12).extractLsb' 0 l = x := by
  simpa using extractLsb'_field (s := 0) x (by omega)

/-- The field at bit 0 leaves the bits above it clear. -/
theorem extractLsb'_low_disjoint (x : BitVec l) (h : l ≤ t) :
    (x.setWidth 12).extractLsb' t n = 0#n := by
  simpa using extractLsb'_field_disjoint (s := 0) (t := t) (n := n) x (by omega)

end

/-! ### The function words -/

/-- The direction is a one-bit field at bit 11 (R110, R111). -/
theorem encodeDirection_field (d : Direction) :
    encodeDirection d = (BitVec.ofBool (d == .write)).setWidth 12 <<< 11 := by
  cases d <;> rfl

/-- The direction is read from the one-bit field at bit 11 (R211). -/
theorem decodeDirection_eq (w : Word12) :
    decodeDirection w = if (w.extractLsb' 11 1).getLsbD 0 then .write else .read := by
  simp [decodeDirection]

theorem decodeDirection_of_field {w : Word12} {d : Direction}
    (h : w.extractLsb' 11 1 = BitVec.ofBool (d == .write)) : decodeDirection w = d := by
  rw [decodeDirection_eq, h]
  cases d <;> rfl

/-- The page count is read back from its five bits, 32 from the code 0 (R213). -/
theorem decodePages_of_field {w : Word12} {pages : Nat}
    (h : w.extractLsb' 6 5 = BitVec.ofNat 5 pages) (h1 : 1 ≤ pages) (h32 : pages ≤ 32) :
    decodePages w = pages := by
  simp only [decodePages, h, BitVec.toNat_ofNat]
  split <;> omega

/-- The page code is a five-bit field: 32 pages have the code 0 (R110). -/
theorem pageCode_field (pages : Nat) :
    BitVec.ofNat 12 (pages % 32) = (BitVec.ofNat 5 pages).setWidth 12 := by
  apply BitVec.eq_of_toNat_eq
  simp

/-- The PAGE-mode function word carries its three fields side by side (R110). -/
theorem pageWords_fields (dir : Direction) (pages : Nat) (field : BitVec 3)
    (buffer start : Word12) :
    ∃ w, paramWords (.page dir pages field buffer start) = [w, buffer, start] ∧
      w.extractLsb' 11 1 = BitVec.ofBool (dir == .write) ∧
      w.extractLsb' 6 5 = BitVec.ofNat 5 pages ∧ w.extractLsb' 3 3 = field := by
  refine ⟨_, by rw [paramWords, encodeDirection_field, pageCode_field], ?_, ?_, ?_⟩ <;>
    simp [BitVec.extractLsb'_or, extractLsb'_field, extractLsb'_field_disjoint]

/-- The first two FIXED-mode words carry two fields each (R111, R113). -/
theorem fixedWords_fields (dir : Direction) (sub field : BitVec 3) (index : BitVec 4)
    (start blocks : Word12) :
    ∃ w0 w1, paramWords (.fixed dir sub field index start blocks) = [w0, w1, start, blocks] ∧
      w0.extractLsb' 11 1 = BitVec.ofBool (dir == .write) ∧ w0.extractLsb' 0 3 = sub ∧
      w1.extractLsb' 4 3 = field ∧ w1.extractLsb' 0 4 = index := by
  refine ⟨_, _, by rw [paramWords, encodeDirection_field], ?_, ?_, ?_, ?_⟩ <;>
    simp [BitVec.extractLsb'_or, extractLsb'_field, extractLsb'_field_disjoint, extractLsb'_low,
      extractLsb'_low_disjoint]

/-! ### A transfer command with its parameter block -/

/-- R102, R125: a command in front of any bytes is read back, and they are left. -/
theorem decode_encode {i : Instr} (h : i.wf = true) (rest : List Byte) :
    decode (encode i ++ rest) = .ok (i, rest) := by
  cases i with
  | ignored b => exact Laws.DecodeEncode.ignored b h rest
  | _ => rfl

theorem Instr.wf_of_isTransfer {i : Instr} (h : i.isTransfer = true) : i.wf = true := by
  cases i with
  | ignored b => cases h
  | _ => rfl

section
variable {i : Instr} (hi : i.isTransfer = true) (more : List Byte)
include hi

/-- R103, R112: in PAGE mode three words are taken after the command byte. -/
theorem decodeTransfer_page (w0 w1 w2 : Word12) :
    decodeTransfer .page (encode i ++ (Machine.encodeControlWords [w0, w1, w2] ++ more)) =
      .ok (i, decodePage w0 w1 w2, more) := by
  obtain ⟨a0, a1, ha, ha'⟩ := Machine.encodeControlWord_pair w0
  obtain ⟨b0, b1, hb, hb'⟩ := Machine.encodeControlWord_pair w1
  obtain ⟨c0, c1, hc, hc'⟩ := Machine.encodeControlWord_pair w2
  simp [decodeTransfer, decode_encode (Instr.wf_of_isTransfer hi), hi, ha, hb, hc, ha', hb', hc']

/-- R103, R113: in FIXED mode four words are taken after the command byte. -/
theorem decodeTransfer_fixed (w0 w1 w2 w3 : Word12) :
    decodeTransfer .fixed (encode i ++ (Machine.encodeControlWords [w0, w1, w2, w3] ++ more)) =
      .ok (i, decodeFixed w0 w1 w2 w3, more) := by
  obtain ⟨a0, a1, ha, ha'⟩ := Machine.encodeControlWord_pair w0
  obtain ⟨b0, b1, hb, hb'⟩ := Machine.encodeControlWord_pair w1
  obtain ⟨c0, c1, hc, hc'⟩ := Machine.encodeControlWord_pair w2
  obtain ⟨d0, d1, hd, hd'⟩ := Machine.encodeControlWord_pair w3
  simp [decodeTransfer, decode_encode (Instr.wf_of_isTransfer hi), hi, ha, hb, hc, hd, ha', hb',
    hc', hd']

end

/-- Settles O7: in each mode the words are read back, and of them the fields. -/
theorem transferDecodeEncode : Obligations.TransferDecodeEncode := by
  intro i mode p more hi hp
  rw [encodeTransfer, List.append_assoc, paramBytes]
  cases p with
  | page dir pages field buffer start =>
    obtain ⟨⟨h1, h32⟩, rfl⟩ : (1 ≤ pages ∧ pages ≤ 32) ∧ Mode.page = mode := by
      simpa [ParamBlock.fits, ParamBlock.wf, ParamBlock.mode] using hp
    obtain ⟨w, hw, hdir, hpages, hfield⟩ := pageWords_fields dir pages field buffer start
    rw [hw, decodeTransfer_page hi, decodePage, decodeDirection_of_field hdir,
      decodePages_of_field hpages h1 h32, hfield]
  | fixed dir sub field index start blocks =>
    obtain rfl : Mode.fixed = mode := by
      simpa [ParamBlock.fits, ParamBlock.wf, ParamBlock.mode] using hp
    obtain ⟨w0, w1, hw, hdir, hsub, hfield, hindex⟩ :=
      fixedWords_fields dir sub field index start blocks
    rw [hw, decodeTransfer_fixed hi, decodeFixed, decodeDirection_of_field hdir, hsub, hfield,
      hindex]

/-! ### Ignored bits -/

/-- Settles O8: every field is read through a mask that keeps its bits. -/
theorem ignoredBitsHaveNoEffect : Obligations.IgnoredBitsHaveNoEffect := by
  refine ⟨fun b0 b1 => ?_, fun w0 w1 w2 w3 => ?_, fun w0 w1 w2 w3 => ?_, fun s0 s1 => ?_⟩
  · simp only [Machine.decodeWireWord, BitVec.and_assoc, BitVec.and_self]
  · simp only [decodeParams, decodePage, decodePages, decodeDirection_eq]
    rw [extractLsb'_and_mask w0 _ rfl, extractLsb'_and_mask w0 _ rfl, extractLsb'_and_mask w0 _ rfl]
  · simp only [decodeParams, decodeFixed, decodeDirection_eq]
    rw [extractLsb'_and_mask w0 _ rfl, extractLsb'_and_mask w0 _ rfl,
      extractLsb'_and_mask w1 _ rfl, extractLsb'_and_mask w1 _ rfl]
  · simp only [Machine.storeDecode, BitVec.and_assoc, BitVec.and_self]

/-! ### Command bytes -/

/-- Settles O5: five named rows, and seven bytes that have none. -/
theorem opcodeMapSamples : Obligations.OpcodeMapSamples :=
  ⟨rfl, rfl, rfl, rfl, rfl, Laws.decodeCommand_unnamed _ rfl, Laws.decodeCommand_unnamed _ rfl,
    Laws.decodeCommand_unnamed _ rfl, Laws.decodeCommand_unnamed _ rfl,
    Laws.decodeCommand_unnamed _ rfl, Laws.decodeCommand_unnamed _ rfl,
    Laws.decodeCommand_unnamed _ rfl⟩

/-- R102: the eight transfer bytes name eight transfers, each its own. -/
theorem decodeCommand_transferByte {b : Byte} (hlo : 0x41#8 ≤ b) (hhi : b ≤ 0x48#8) :
    (decodeCommand b).isTransfer = true ∧ encodeCommand (decodeCommand b) = b := by
  have hb : b = 0x41#8 ∨ b = 0x42#8 ∨ b = 0x43#8 ∨ b = 0x44#8 ∨ b = 0x45#8 ∨ b = 0x46#8 ∨
      b = 0x47#8 ∨ b = 0x48#8 := by bv_omega
  rcases hb with rfl | rfl | rfl | rfl | rfl | rfl | rfl | rfl <;> exact ⟨rfl, rfl⟩

namespace Machine

theorem index_unitOfIndex (n : Nat) : (unitOfIndex n).index = n % 4 := by
  have hn : n % 4 < 4 := Nat.mod_lt n (by decide)
  unfold unitOfIndex
  match n % 4, hn with
  | 0, _ | 1, _ | 2, _ | 3, _ => rfl

/-- R205: the unit counts the transfer bytes in pairs. -/
theorem index_unitOf {b : Byte} (hlo : 0x41#8 ≤ b) (hhi : b ≤ 0x48#8) :
    (unitOf b).index = (b.toNat - 0x41) / 2 := by
  have hsub : (b - 0x41#8).toNat = b.toNat - 0x41 := BitVec.toNat_sub_of_le hlo
  have hle : b.toNat ≤ 0x48 := hhi
  rw [unitOf, index_unitOfIndex, BitVec.toNat_ushiftRight, hsub, Nat.shiftRight_eq_div_pow]
  omega

/-- R206: the side is the complement of bit 0. -/
theorem toNat_sideOf (b : Byte) : (sideOf b).toNat = if b.toNat % 2 = 0 then 1 else 0 := by
  rw [sideOf, BitVec.toNat_setWidth, BitVec.toNat_not]
  have hb := b.isLt
  split <;> omega

/-- Settles O6: the resolver's unit and side are those of the command byte. -/
theorem transferByteFields : Obligations.TransferByteFields := by
  intro b hlo hhi
  obtain ⟨hi, hb⟩ := decodeCommand_transferByte hlo hhi
  exact ⟨hi, hb, index_unitOf hlo hhi, toNat_sideOf b,
    fun _ _ _ => ⟨index_unitOf hlo hhi, toNat_sideOf b⟩⟩

/-- R185: in `IDLE` an ignored byte changes nothing. -/
theorem exec_ignored_of_idle {s : State} (b : Byte) (hp : s.phase = .idle) :
    exec (.ignored b) s = .next s := by
  show Host.Outcome.next s.goIdle = _
  rw [State.goIdle, State.withPhase, ← hp]

/-- Settles O14: the byte is fetched, and decodes as `ignored`. -/
theorem unnamedByteIsDropped : Obligations.UnnamedByteIsDropped := by
  intro s b rest hp hc hf hq hb
  rw [step_idle_ok hp (fetchCommand_ok hc hq hf), Laws.decodeCommand_unnamed b hb]
  exact exec_ignored_of_idle b hp

end Machine

end Sys2Proof

/-! ## Every byte a transfer sends has bits 7:6 zero (30_encoding.md R106) -/

namespace Sys2Proof.Machine

/-- Bits 7:6 of every byte are zero. -/
def SixBit (bs : List Byte) : Prop := ∀ b ∈ bs, b.toNat < 64

theorem SixBit.append {as bs : List Byte} (ha : SixBit as) (hb : SixBit bs) : SixBit (as ++ bs) :=
  fun b h => (List.mem_append.1 h).elim (ha b) (hb b)

theorem SixBit.take {bs : List Byte} (h : SixBit bs) (k : Nat) : SixBit (bs.take k) :=
  fun b hb => h b (List.mem_of_mem_take hb)

/-- R105: a control word is sent as two six-bit bytes. -/
theorem sixBit_encodeControlWord (w : Word12) : SixBit (encodeControlWord w) := by
  obtain ⟨b0, b1, he, h0, h1⟩ := encodeControlWord_eq w
  have hw := w.isLt
  rw [he]
  intro b hb
  rcases List.mem_pair.1 hb with rfl | rfl <;> omega

theorem sixBit_setupBytes (tr : TransferRequest) : SixBit (setupBytes tr) :=
  (sixBit_encodeControlWord _).append (sixBit_encodeControlWord _)

/-- R146: a store pair becomes two six-bit bytes. -/
theorem sixBit_wirePair (s0 s1 : Byte) : SixBit (wirePair s0 s1) := by
  intro b hb
  rcases List.mem_pair.1 hb with rfl | rfl
  · rw [toNat_and_lowMask s0 _ 6 rfl]
    exact Nat.mod_lt _ (by decide)
  · rw [BitVec.toNat_or, BitVec.toNat_shiftLeft, toNat_and_lowMask _ _ 2 rfl,
      toNat_and_lowMask s1 _ 4 rfl, Nat.shiftLeft_eq]
    exact Nat.or_lt_two_pow (n := 6) (by omega) (by omega)

/-- R146: and so every byte of a list that `store_to_wire` makes. -/
theorem sixBit_storeToWire {ss wire : List Byte} (h : storeToWire ss = some wire) :
    SixBit wire := by
  fun_induction storeToWire ss generalizing wire with
  | case1 => cases h; exact nofun
  | case2 => cases h
  | case3 s0 s1 rest ih =>
    obtain ⟨tail, ht, rfl⟩ := Option.map_eq_some_iff.1 h
    exact (sixBit_wirePair s0 s1).append (ih ht)

/-- From `s` to `t` only bytes with bits 7:6 zero are sent. -/
def SendsSixBit (s t : State) : Prop := ∃ sent, t.tx = s.tx ++ sent ∧ SixBit sent

theorem SendsSixBit.of_tx {s t : State} (h : t.tx = s.tx := by simp) : SendsSixBit s t :=
  ⟨[], by simp [h], nofun⟩

theorem sendsSixBit_composes : Composes SendsSixBit SendsSixBit := by
  refine .of_preorder (fun _ => .of_tx) ?_
  rintro s t r ⟨sent, ht, h⟩ ⟨sent', hr, h'⟩
  exact ⟨sent ++ sent', by rw [hr, ht, List.append_assoc], h.append h'⟩

section
variable (s : State)

/-- A failing `Send` delivers only the first of its bytes (R311), and they are six-bit too. -/
theorem send_sendsSixBit {bs : List Byte} (h : SixBit bs) :
    (send bs s).Within SendsSixBit SendsSixBit s :=
  send_rule (fun k => nextIn_next ⟨bs.take k, rfl, h.take k⟩) ⟨bs, rfl, h⟩

theorem recv_sendsSixBit (n : Nat) : (recv n s).Within SendsSixBit SendsSixBit s :=
  recv_rule (fun _ => nextIn_next .of_tx) (nextIn_next .of_tx) fun _ => SendsSixBit.of_tx

theorem drain_sendsSixBit : (drain s).Within SendsSixBit SendsSixBit s :=
  drain_rule (fun _ => nextIn_next .of_tx) SendsSixBit.of_tx

theorem storeRead_sendsSixBit (u : UnitNo) (off n : Nat) :
    (storeRead u off n s).Within SendsSixBit SendsSixBit s :=
  storeRead_rule (fun _ => nextIn_fault _) (nextIn_next .of_tx) SendsSixBit.of_tx

theorem storeWrite_sendsSixBit (u : UnitNo) (off : Nat) (bs : List Byte) :
    (storeWrite u off bs s).Within SendsSixBit SendsSixBit s :=
  storeWrite_rule (fun _ => nextIn_fault _) (fun _ => nextIn_next .of_tx) SendsSixBit.of_tx

theorem storeFlush_sendsSixBit (u : UnitNo) :
    (storeFlush u s).Within SendsSixBit SendsSixBit s :=
  storeFlush_rule (fun _ => nextIn_fault _) (nextIn_next .of_tx) SendsSixBit.of_tx

theorem afterAck_tx : (afterAck s).tx = s.tx := by
  unfold afterAck
  split
  · split <;> rfl
  · rfl

theorem afterWrAck_tx : (afterWrAck s).tx = s.tx := by
  unfold afterWrAck
  split <;> rfl

theorem rdSend_sendsSixBit : (rdSend s).Within SendsSixBit SendsSixBit s := by
  unfold rdSend
  cases h : storeToWire s.buf with
  | none => exact nextIn_refused _
  | some wire =>
    exact sendsSixBit_composes.andThen_ok (send_sendsSixBit s (sixBit_storeToWire h))
      fun _ _ => .of_tx

theorem wrCommit_sendsSixBit : (wrCommit s).Within SendsSixBit SendsSixBit s := by
  unfold wrCommit
  cases unwireToStore s.buf with
  | none => exact nextIn_refused _
  | some bytes =>
    exact sendsSixBit_composes.andThen_ok (storeWrite_sendsSixBit s _ _ bytes) fun _ _ => .of_tx

/-- One primitive of a transfer, in any phase. -/
theorem xferStep_sendsSixBit (b : Byte) (p : XferPhase) :
    (xferStep b p s).Within SendsSixBit SendsSixBit s := by
  have hc := sendsSixBit_composes
  cases p with
  | params => exact hc.andThen_ok (recv_sendsSixBit s _) fun _ _ => .of_tx
  | setup => exact hc.andThen_ok (send_sendsSixBit s (sixBit_setupBytes _)) fun _ _ => .of_tx
  | ack =>
    exact hc.andThen_ok (send_sendsSixBit s (sixBit_encodeControlWord _)) fun _ t =>
      .of_tx (afterAck_tx t)
  | rdFetch => exact hc.andThen_ok (storeRead_sendsSixBit s _ _ _) fun _ _ => .of_tx
  | rdSend => exact rdSend_sendsSixBit s
  | rdDrain => exact hc.andThen_ok (drain_sendsSixBit s) fun _ _ => .of_tx
  | rdFinal =>
    exact hc.andThen_ok (send_sendsSixBit s (sixBit_encodeControlWord _)) fun _ _ => .of_tx
  | wrRecv => exact hc.andThen_ok (recv_sendsSixBit s _) fun _ _ => .of_tx
  | wrDrain => exact hc.andThen_ok (drain_sendsSixBit s) fun _ _ => .of_tx
  | wrPad => exact SendsSixBit.of_tx
  | wrAck =>
    exact hc.andThen_ok (send_sendsSixBit s (sixBit_encodeControlWord _)) fun _ t =>
      .of_tx (afterWrAck_tx t)
  | wrCommit => exact wrCommit_sendsSixBit s
  | wrFlush => exact hc.andThen_ok (storeFlush_sendsSixBit s _) fun _ _ => .of_tx

theorem enterXfer_tx : (enterXfer s).tx = s.tx := by
  unfold enterXfer
  split <;> rfl

theorem transfer_sendsSixBit (b : Byte) : NextIn (SendsSixBit s) (transfer b s) :=
  sendsSixBit_composes.outcome (xferRun_holds (I := SendsSixBit s)
    (fun p t _ ht => sendsSixBit_composes.within_trans ht (xferStep_sendsSixBit t b p))
    xferLength _ (.of_tx (enterXfer_tx s)))

end

/-- Settles O44: `xferStep_sendsSixBit`, carried along the run. -/
theorem transferSendsSixBitBytes : Obligations.TransferSendsSixBitBytes := by
  intro i s t hi h
  rw [exec_transfer hi] at h
  exact transfer_sendsSixBit s _ t h

end Sys2Proof.Machine

/-! ## The laws of the codec (40_codec.md R145 to R149) -/

namespace Sys2Proof.Machine

/-! ### The conversion of one pair, through the word it carries -/

/-- Two bit fields side by side add up. -/
theorem toNat_or_shiftLeft {v : Nat} (x y : BitVec v) (k : Nat) (hx : x.toNat < 2 ^ k)
    (hy : y.toNat * 2 ^ k < 2 ^ v) : (x ||| y <<< k).toNat = x.toNat + y.toNat * 2 ^ k := by
  rw [BitVec.toNat_or, BitVec.toNat_shiftLeft, Nat.shiftLeft_eq, Nat.mod_eq_of_lt hy, Nat.or_comm,
    ← Nat.shiftLeft_eq, ← Nat.shiftLeft_add_eq_or_of_lt hx, Nat.shiftLeft_eq, Nat.add_comm]

/-- R142: the word of a store pair, of whose second byte only the low four bits count. -/
theorem toNat_storeDecode (s0 s1 : Byte) :
    (storeDecode s0 s1).toNat = s0.toNat + 256 * (s1.toNat % 16) := by
  have h0 : (s0.setWidth 12).toNat = s0.toNat := BitVec.toNat_setWidth_of_le (by decide)
  have h1 : ((s1 &&& 0o17#8).setWidth 12).toNat = s1.toNat % 16 := by
    rw [BitVec.toNat_setWidth_of_le (by decide)]
    exact toNat_and_lowMask s1 _ 4 rfl
  have hs0 := s0.isLt
  rw [storeDecode, toNat_or_shiftLeft _ _ _ (by omega) (by omega), h0, h1]
  omega

/-- The wire pair of a word is known by its two values (R144). -/
theorem encodeControlWord_eq_of_toNat {w : Word12} {b0 b1 : Byte} (h0 : b0.toNat = w.toNat % 64)
    (h1 : b1.toNat = w.toNat / 64) : encodeControlWord w = [b0, b1] := by
  obtain ⟨c0, c1, hc, hc0, hc1⟩ := encodeControlWord_eq w
  rw [hc, BitVec.eq_of_toNat_eq (hc0.trans h0.symm), BitVec.eq_of_toNat_eq (hc1.trans h1.symm)]

/-- The store pair of a word is known by its two values (R143). -/
theorem storeEncode_eq_of_toNat {w : Word12} {s0 s1 : Byte} (h0 : s0.toNat = w.toNat % 256)
    (h1 : s1.toNat = w.toNat / 256) : storeEncode w = [s0, s1] := by
  obtain ⟨c0, c1, hc, hc0, hc1⟩ := storeEncode_eq w
  rw [hc, BitVec.eq_of_toNat_eq (hc0.trans h0.symm), BitVec.eq_of_toNat_eq (hc1.trans h1.symm)]

/-- R145: the store pair made of a wire pair encodes the word of the wire pair. -/
theorem unwirePair_eq (b0 b1 : Byte) : unwirePair b0 b1 = storeEncode (decodeWireWord b0 b1) := by
  have hlow := toNat_and_lowMask b0 0o77#8 6 rfl
  have hmid := toNat_and_lowMask b1 0o3#8 2 rfl
  refine (storeEncode_eq_of_toNat ?_ ?_).symm
  · rw [toNat_decodeWireWord, toNat_or_shiftLeft _ _ _ (by omega) (by omega), hlow, hmid]
    omega
  · rw [toNat_decodeWireWord, toNat_and_lowMask _ _ 4 rfl, BitVec.toNat_ushiftRight,
      Nat.shiftRight_eq_div_pow]
    omega

/-- R146: the wire pair made of a store pair encodes the word of the store pair. -/
theorem wirePair_eq (s0 s1 : Byte) : wirePair s0 s1 = encodeControlWord (storeDecode s0 s1) := by
  have hlow : ((s0 >>> 6) &&& 0o3#8).toNat = s0.toNat / 64 % 4 := by
    rw [← Nat.shiftRight_eq_div_pow s0.toNat 6, ← BitVec.toNat_ushiftRight]
    exact toNat_and_lowMask _ _ 2 rfl
  have hhigh := toNat_and_lowMask s1 0o17#8 4 rfl
  have hs0 := s0.isLt
  refine (encodeControlWord_eq_of_toNat ?_ ?_).symm
  · rw [toNat_storeDecode, toNat_and_lowMask s0 _ 6 rfl]
    omega
  · rw [toNat_storeDecode, toNat_or_shiftLeft _ _ _ (by omega) (by omega), hlow, hhigh]
    omega

/-- A wire pair is read back with its reserved bits 7:6 cleared (R147). -/
theorem encodeControlWord_decodeWireWord (b0 b1 : Byte) :
    encodeControlWord (decodeWireWord b0 b1) = [b0 &&& 0o77#8, b1 &&& 0o77#8] := by
  refine encodeControlWord_eq_of_toNat ?_ ?_ <;>
    rw [toNat_decodeWireWord, toNat_and_lowMask _ _ 6 rfl] <;> omega

/-- A store pair is read back with the reserved bits 7:4 of its second byte cleared (R147). -/
theorem storeEncode_storeDecode (s0 s1 : Byte) :
    storeEncode (storeDecode s0 s1) = [s0, s1 &&& 0x0F#8] := by
  have hs0 := s0.isLt
  refine storeEncode_eq_of_toNat ?_ ?_
  · rw [toNat_storeDecode]
    omega
  · rw [toNat_storeDecode, toNat_and_lowMask s1 _ 4 rfl]
    omega

/-- A word is read back from its store pair. -/
theorem storeEncode_pair (w : Word12) :
    ∃ s0 s1, storeEncode w = [s0, s1] ∧ storeDecode s0 s1 = w := by
  obtain ⟨s0, s1, he, h0, h1⟩ := storeEncode_eq w
  refine ⟨s0, s1, he, BitVec.eq_of_toNat_eq ?_⟩
  rw [toNat_storeDecode, h0, h1]
  omega

/-! ### Lists of pairs -/

/-- Induction over the pairs of a list of even length. -/
theorem even_list_induction {P : (l : List Byte) → l.length % 2 = 0 → Prop} (nil : P [] rfl)
    (pair : ∀ a b rest h h', P rest h → P (a :: b :: rest) h') (l : List Byte)
    (h : l.length % 2 = 0) : P l h := by
  induction l using List.twoStepInduction with
  | nil => exact nil
  | singleton a => simp at h
  | cons_cons a b rest ih _ =>
    have hrest : rest.length % 2 = 0 := by simp at h; omega
    exact pair a b rest hrest h (ih hrest)

@[simp] theorem storeDecodeWords_cons (a b : Byte) (r : List Byte) :
    storeDecodeWords (a :: b :: r) = storeDecode a b :: storeDecodeWords r := rfl

@[simp] theorem length_flatMap_storeEncode (ws : List Word12) :
    (ws.flatMap storeEncode).length = 2 * ws.length := by
  simp [List.length_flatMap, Nat.mul_comm]

/-- R145: `unwire_to_store` encodes for the store the words it reads from the wire. -/
theorem unwireToStore_eq {bs : List Byte} (h : bs.length % 2 = 0) :
    unwireToStore bs = some ((decodeWireWords bs).flatMap storeEncode) := by
  induction bs, h using even_list_induction with
  | nil => rfl
  | pair b0 b1 rest _ _ ih => simp [unwireToStore, ih, unwirePair_eq]

/-- R146: `store_to_wire` encodes for the wire the words it reads from the store. -/
theorem storeToWire_eq {ss : List Byte} (h : ss.length % 2 = 0) :
    storeToWire ss = some (encodeControlWords (storeDecodeWords ss)) := by
  induction ss, h using even_list_induction with
  | nil => rfl
  | pair s0 s1 rest _ _ ih => simp [storeToWire, ih, wirePair_eq]

/-- I26: a list of odd length is refused. -/
theorem unwireToStore_odd {bs : List Byte} (h : bs.length % 2 = 1) : unwireToStore bs = none := by
  fun_induction unwireToStore bs with
  | case1 => simp at h
  | case2 => rfl
  | case3 b0 b1 rest ih => rw [ih (by simp at h; omega), Option.map_none]

/-- I26: a list of odd length is refused. -/
theorem storeToWire_odd {ss : List Byte} (h : ss.length % 2 = 1) : storeToWire ss = none := by
  fun_induction storeToWire ss with
  | case1 => simp at h
  | case2 => rfl
  | case3 s0 s1 rest ih => rw [ih (by simp at h; omega), Option.map_none]

/-- Settles O2: pair by pair, each conversion goes through the word. -/
theorem bulkConversionIsWordByWord : Obligations.BulkConversionIsWordByWord :=
  ⟨fun _ h => unwireToStore_eq h, fun _ h => storeToWire_eq h,
    fun _ h => ⟨unwireToStore_odd h, storeToWire_odd h⟩⟩

/-! ### The round trips -/

/-- Words are read back from their wire pairs. -/
theorem decodeWireWords_encodeControlWords (ws : List Word12) :
    decodeWireWords (encodeControlWords ws) = ws := by
  induction ws with
  | nil => rfl
  | cons w ws ih =>
    obtain ⟨b0, b1, he, hd⟩ := encodeControlWord_pair w
    simp [he, hd, ih]

/-- Words are read back from their store pairs. -/
theorem storeDecodeWords_flatMap_storeEncode (ws : List Word12) :
    storeDecodeWords (ws.flatMap storeEncode) = ws := by
  induction ws with
  | nil => rfl
  | cons w ws ih =>
    obtain ⟨s0, s1, he, hd⟩ := storeEncode_pair w
    simp [he, hd, ih]

/-- Through the words, a wire list keeps all but its reserved bits. -/
theorem encodeControlWords_decodeWireWords {bs : List Byte} (h : bs.length % 2 = 0) :
    encodeControlWords (decodeWireWords bs) = bs.map (· &&& 0o77#8) := by
  induction bs, h using even_list_induction with
  | nil => rfl
  | pair b0 b1 rest _ _ ih => simp [encodeControlWord_decodeWireWord, ih]

/-- Through the words, a store list keeps all but its reserved bits. -/
theorem flatMap_storeEncode_storeDecodeWords {ss : List Byte} (h : ss.length % 2 = 0) :
    (storeDecodeWords ss).flatMap storeEncode =
      ss.mapIdx fun i b => if i % 2 = 1 then b &&& 0x0F#8 else b := by
  induction ss, h using even_list_induction with
  | nil => rfl
  | pair s0 s1 rest _ _ ih => simp [storeEncode_storeDecode, ih, Nat.add_assoc]

/-- R147: from the wire to the store and back, the reserved bits are cleared. -/
theorem storeToWire_unwireToStore {bs : List Byte} (h : bs.length % 2 = 0) :
    (unwireToStore bs).bind storeToWire = some (bs.map (· &&& 0o77#8)) := by
  rw [unwireToStore_eq h, Option.bind_some, storeToWire_eq (by simp),
    storeDecodeWords_flatMap_storeEncode, encodeControlWords_decodeWireWords h]

/-- R147: from the store to the wire and back, the reserved bits are cleared. -/
theorem unwireToStore_storeToWire {ss : List Byte} (h : ss.length % 2 = 0) :
    (storeToWire ss).bind unwireToStore =
      some (ss.mapIdx fun i b => if i % 2 = 1 then b &&& 0x0F#8 else b) := by
  rw [storeToWire_eq h, Option.bind_some, unwireToStore_eq (by simp),
    decodeWireWords_encodeControlWords, flatMap_storeEncode_storeDecodeWords h]

/-- A mask changes nothing where the bits it clears are clear. -/
theorem and_eq_self_of_and_not_eq_zero {v : Nat} {x m : BitVec v} (h : x &&& ~~~m = 0#v) :
    x &&& m = x := by
  ext i hi
  have hbit := congrArg (·[i]'hi) h
  simp at hbit
  simpa using hbit

/-- Where bits 7:4 of every second byte are clear, clearing them changes nothing. -/
theorem mapIdx_clear_odd {ss : List Byte}
    (h : ∀ i b, ss[i]? = some b → i % 2 = 1 → b &&& 0xF0#8 = 0#8) :
    (ss.mapIdx fun i b => if i % 2 = 1 then b &&& 0x0F#8 else b) = ss := by
  refine List.ext_getElem (List.length_mapIdx) fun i hi hi' => ?_
  rw [List.getElem_mapIdx]
  split
  next hodd => exact and_eq_self_of_and_not_eq_zero (h i _ (List.getElem?_eq_getElem hi') hodd)
  next => rfl

/-- Settles O1: `storeToWire_unwireToStore` and `unwireToStore_storeToWire` clear the reserved
bits, and where those are clear already they clear nothing. -/
theorem codecRoundTrips : Obligations.CodecRoundTrips := by
  refine ⟨fun bs h hclear => ?_, fun ss h hclear => ?_, fun _ h => storeToWire_unwireToStore h,
    fun _ h => unwireToStore_storeToWire h, fun w => decodeWireWords_encodeControlWords [w],
    fun w => storeDecodeWords_flatMap_storeEncode [w]⟩
  · have hid : bs.map (· &&& 0o77#8) = bs.map id :=
      List.map_congr_left fun b hb => and_eq_self_of_and_not_eq_zero (hclear b hb)
    rw [storeToWire_unwireToStore h, hid, List.map_id]
  · rw [unwireToStore_storeToWire h, mapIdx_clear_odd hclear]

/-! ### The two's complement of a count -/

/-- R149: `neg12` by its value. -/
theorem toNat_neg12 (n : Nat) : (neg12 n).toNat = (4096 - n % 4096) % 4096 := by
  rw [neg12, BitVec.toNat_ofNat]
  omega

/-- Settles O4. -/
theorem negativeWordCount : Obligations.NegativeWordCount := by
  refine fun n => ⟨toNat_neg12 n, BitVec.eq_of_toNat_eq ?_⟩
  rw [BitVec.toNat_add, toNat_neg12, BitVec.toNat_ofNat, BitVec.toNat_ofNat]
  omega

end Sys2Proof.Machine

/-! ## The dispatcher in `IDLE` (41_dispatcher.md R170, R171, R184, R185) -/

namespace Sys2Proof.Machine

/-! ### Taking a byte -/

theorem wf_of_isTransfer {i : Instr} (h : i.isTransfer = true) : i.wf = true := by
  cases i with
  | ignored b => cases h
  | _ => rfl

/-- R102, R185: a named byte decodes to the command of its row, and any other to `ignored`, which
holds it. -/
theorem decodeCommand_wf (b : Byte) : (decodeCommand b).wf = true := by
  cases hb : isNamedCommand b with
  | false => rw [Laws.decodeCommand_unnamed b hb, Instr.wf, hb]; rfl
  | true =>
    simp only [isNamedCommand, Bool.or_eq_true, Bool.and_eq_true, beq_iff_eq,
      decide_eq_true_eq] at hb
    rcases hb with (rfl | ⟨hlo, hhi⟩) | rfl
    · rfl
    · by_cases hboot : b = 0x40#8
      · subst hboot; rfl
      · exact wf_of_isTransfer (decodeCommand_transferByte (by bv_omega) hhi).1
    · rfl

/-- R170: in `IDLE`, undisturbed, the step takes the first queued byte into `CMD` and runs the
command it decodes to. -/
theorem step_takes_byte {s : State} {b : Byte} {rest : List Byte} (hp : s.phase = .idle)
    (hc : s.advance.cancel = false) (hf : s.failNow = none) (hq : s.advance.rxq = b :: rest) :
    step s = exec (decodeCommand b)
      (((s.advance.withRxq rest).withCmd b).record (.recv [b])) :=
  step_idle_ok hp (fetchCommand_ok hc hq hf)

/-- Settles O9: the byte at the front of the queue is the encoding of what it decodes to. -/
theorem stepRunsDecodedCommand : Obligations.StepRunsDecodedCommand := by
  refine ⟨fun s i rest hp hc hf hd => ?_, fun s p hp => step_xfer hp⟩
  cases hq : s.advance.rxq with
  | nil => rw [hq] at hd; cases hd
  | cons b bs =>
    rw [hq] at hd
    cases hd
    refine ⟨decodeCommand_wf b, ?_⟩
    rw [encodeCommand_decodeCommand]
    exact step_takes_byte hp hc hf hq

/-- A command has at least its byte (R103). -/
theorem instrLength_pos (mode : Mode) (i : Instr) : ∃ n, instrLength mode i = n + 1 := by
  unfold instrLength
  split
  · exact ⟨_, Nat.add_comm 1 _⟩
  · exact ⟨0, rfl⟩

/-- The byte of the table's bits stands at the front of the queue. -/
theorem withFetchWord_rxq (s : State) (w : Nat) :
    ∃ rest, (s.withFetchWord 8 w).rxq = BitVec.ofNat 8 (w % 2 ^ 8) :: rest := by
  obtain ⟨n, hn⟩ :=
    instrLength_pos s.cfg.mode (decodeCommand (BitVec.ofNat 8 (w % 2 ^ 8)))
  refine ⟨bytesOfNat (w % 2 ^ 8 / 256) n ++ s.rxq, ?_⟩
  rw [State.withFetchWord, placeInstruction, hn]
  rfl

/-- Settles O10: the engine is idle and undisturbed, so the step takes the byte placed. -/
theorem placedInstructionRuns : Obligations.PlacedInstructionRuns := by
  intro s w
  obtain ⟨rest, hq⟩ := withFetchWord_rxq s w
  have hmove : (s.withFetchWord 8 w).advance = s.withFetchWord 8 w := advance_of_env_nil rfl
  have hstep := step_takes_byte (s := s.withFetchWord 8 w) rfl rfl rfl (hmove ▸ hq)
  rw [hmove] at hstep
  refine ⟨decodeCommand (BitVec.ofNat 8 (w % 2 ^ 8)), rest, rfl, ?_, ?_⟩
  · rw [encodeCommand_decodeCommand, hq]
  · rw [encodeCommand_decodeCommand, hstep]

/-- Settles O11. -/
theorem idleEngineWaits : Obligations.IdleEngineWaits :=
  fun _ hp hc hq => step_idle_stop hp (fetchCommand_waits hc hq)

/-- Settles O13: `goIdle` writes the phase alone. -/
theorem ignoredCompletes : Obligations.IgnoredCompletes := fun _ _ => rfl

/-! ### The two orderly ends -/

/-- The fields that no part of a shutdown writes. -/
theorem OnlyClosed.frame {s t : State} (h : OnlyClosed s t) :
    t.tx = s.tx ∧ t.stores = s.stores ∧ t.cmd = s.cmd ∧ t.cfg = s.cfg ∧ t.units = s.units ∧
      t.w = s.w ∧ t.tr = s.tr ∧ t.buf = s.buf ∧ t.desync = s.desync ∧ t.draws = s.draws := by
  unfold OnlyClosed at h
  rw [h]
  exact ⟨rfl, rfl, rfl, rfl, rfl, rfl, rfl, rfl, rfl, rfl⟩

/-- Settles O12: the cancel request is taken first, and the shutdown closes every store. -/
theorem cancelIsTakenFirst : Obligations.CancelIsTakenFirst := by
  intro s hp hc hn
  obtain ⟨t, ht, -, hclosed, htrace, hrxq, hcancel, hx⟩ := closeAll_ok s.advance hn.advance
  have hstep : step s = .next (halt .cancel t) := by
    rw [step_idle_stop hp (fetchCommand_cancel hc), cancelShutdown, ht]
    rfl
  have htrace' : (halt .cancel t).trace = s.trace ++ closeEvents s.isOpen ++ [.halt .cancel] := by
    rw [halt_trace, htrace, advance_trace, advance_isOpen]
  have hqueue : s.rxq <+: t.rxq := by
    have hmove : s.rxq <+: s.advance.rxq := by simp
    exact hmove.trans hrxq
  obtain ⟨htx, hstores, hcmd, hrest⟩ := hx.frame
  exact ⟨_, hstep, rfl, hclosed, htrace', hqueue, htx, hstores, hcmd, hcancel hc, hrest⟩

/-- The power-off is an event and nothing else (R333). -/
theorem powerOffIf_eq (s : State) : powerOffIf s =
    { s with trace := s.trace ++ if s.cfg.powerOff then [.powerOff] else [] } := by
  unfold powerOffIf
  split
  · rfl
  · rw [List.append_nil]

/-- Settles O15: `QUIT` is the orderly close, the power-off event and the halt. -/
theorem quitCompletes : Obligations.QuitCompletes := by
  intro s hn
  obtain ⟨t, ht, -, hclosed, htrace, hrxq, -, hx⟩ := closeAll_ok (s.withPhase .quit) hn
  have hexec : exec .quit s = .next (halt .quit (powerOffIf t)) := by
    show execQuit s = _
    rw [execQuit, ht]
    rfl
  obtain ⟨htx, hstores, hcmd, hcfg, hrest⟩ := hx.frame
  have htrace' : (halt .quit (powerOffIf t)).trace = s.trace ++ closeEvents s.isOpen ++
      (if s.cfg.powerOff then [.powerOff] else []) ++ [.halt .quit] := by
    rw [halt_trace, powerOffIf_eq, htrace, hcfg, withPhase_trace, withPhase_isOpen,
      withPhase_cfg]
  refine ⟨_, hexec, rfl, ?_, htrace', ?_⟩
  · intro u
    rw [halt_isOpen, powerOffIf_isOpen, hclosed]
  · rw [powerOffIf_eq]
    exact ⟨hrxq, htx, hstores, hcmd, hcfg, hrest⟩

end Sys2Proof.Machine

/-! ## Where a command can end (41_dispatcher.md R173; 10_state.md R31, R32)

A procedure that is not run to its end stops in a wait, or in `FATAL` by one of the environment's
moves; `Interrupted` says so of the state it stops in. The moves a procedure has left are among
those it began with, so the failing one is found in the state the step began in. -/

namespace Sys2Proof.Machine

/-- Begun in `s`, a procedure has stopped in `t` before its end: in a wait, or in `FATAL`, and then
a coming move of the environment makes a primitive fail. -/
def Interrupted (s t : State) : Prop :=
  t.phase.isWait = true ∨ ∃ info, t.phase = .fatal info ∧ ∃ m ∈ s.env, m.fail ≠ none

/-- The attempt is done with moves left that `s` had, or is interrupted. -/
def Attempt.Proceeds {α : Type} (s : State) (x : Attempt α) : Prop :=
  x.Holds (fun _ t => t.env ⊆ s.env) (NextIn (Interrupted s))

/-- The attempt is done in phase `q`, or is interrupted. -/
def Attempt.EndsIn {α : Type} (q : Phase) (s : State) (x : Attempt α) : Prop :=
  x.Holds (fun _ t => t.phase = q) (NextIn (Interrupted s))

/-- A procedure's next state is in phase `q`, or the procedure is interrupted. -/
def Ended (q : Phase) (s t : State) : Prop := t.phase = q ∨ Interrupted s t

section
variable {α β : Type} {q : Phase} {s t r : State}

/-- A failing move left at `t` was among those at `s`. -/
theorem Interrupted.of_env_subset (henv : t.env ⊆ s.env) (h : Interrupted t r) :
    Interrupted s r := by
  rcases h with hw | ⟨info, hi, m, hm, hfail⟩
  · exact .inl hw
  · exact .inr ⟨info, hi, m, henv hm, hfail⟩

/-- The move before a primitive that fails is one of the coming moves. -/
theorem exists_fail_of_failNow {k : Nat} (h : s.failNow = some k) :
    ∃ m ∈ s.env, m.fail ≠ none := by
  by_contra hnone
  have hn : NoFailures s := by simpa [NoFailures] using hnone
  rw [headFail_of_noFailures hn] at h
  cases h

theorem nextIn_interrupted_fatal {k : Nat} (h : s.failNow = some k) (p : Primitive)
    (u : Option UnitNo) (t : State) : NextIn (Interrupted s) (.next (raiseFatal p u t)) :=
  nextIn_next (.inr ⟨⟨p, u⟩, rfl, exists_fail_of_failNow h⟩)

theorem NextIn.interrupted_of_env_subset {o : Host.Outcome State Fault Refusal}
    (henv : t.env ⊆ s.env) (h : NextIn (Interrupted t) o) : NextIn (Interrupted s) o :=
  fun r hr => (h r hr).of_env_subset henv

theorem Ended.of_env_subset (henv : t.env ⊆ s.env) (h : Ended q t r) : Ended q s r :=
  h.imp_right (.of_env_subset henv)

theorem Attempt.EndsIn.ok {a : α} (h : t.phase = q) : (Attempt.ok a t).EndsIn q s := h

theorem env_subset_of_eq (h : t.env = s.env) : t.env ⊆ s.env := by
  rw [h]
  exact List.Subset.refl _

theorem Attempt.Proceeds.ok {a : α} (h : t.env = s.env) : (Attempt.ok a t).Proceeds s :=
  env_subset_of_eq h

theorem Attempt.Proceeds.andThen {x : Attempt β} {f : β → State → Attempt α}
    (hx : x.Proceeds s) (hf : ∀ b t, (f b t).Proceeds t) : (x.andThen f).Proceeds s :=
  (Attempt.holds_andThen x f).2 (hx.mono (fun b t ht => (hf b t).mono
    (fun _ _ hr => List.Subset.trans hr ht) fun _ => .interrupted_of_env_subset ht) fun _ ho => ho)

/-- A primitive and then an update that leaves the moves alone. -/
theorem Attempt.Proceeds.andThen_ok {x : Attempt β} {f : β → State → State}
    (hx : x.Proceeds s) (hf : ∀ b t, (f b t).env = t.env) :
    (x.andThen fun b t => .ok () (f b t)).Proceeds s :=
  hx.andThen fun b t => Attempt.Proceeds.ok (hf b t)

theorem Attempt.Proceeds.andThen_endsIn {x : Attempt β} {f : β → State → Attempt α}
    (hx : x.Proceeds s) (hf : ∀ b t, (f b t).EndsIn q t) : (x.andThen f).EndsIn q s :=
  (Attempt.holds_andThen x f).2 (hx.mono (fun b t ht => (hf b t).mono (fun _ _ hr => hr)
    fun _ => .interrupted_of_env_subset ht) fun _ ho => ho)

/-- A primitive that does not wait: it is enough that, when the environment lets it succeed, it is
done or has no next state. -/
theorem Attempt.Performs.proceeds {x : Attempt α} (hx : x.Performs s)
    (hdone : s.failNow = none → x.Holds (fun _ _ => True) (NextIn fun _ => False)) :
    x.Proceeds s := by
  cases x with
  | ok a t =>
    show t.env ⊆ s.env
    rw [Performed.env hx]
    exact List.tail_subset _
  | stop o =>
    intro t ht
    obtain ⟨info, hi⟩ := hx t ht
    cases hf : s.failNow with
    | some k => exact .inr ⟨info, hi, exists_fail_of_failNow hf⟩
    | none => exact (hdone hf t ht).elim

theorem Attempt.EndsIn.outcome {x : Attempt α} (h : x.EndsIn q s) :
    NextIn (Ended q s) x.outcome :=
  Attempt.holds_outcome (h.mono (fun _ _ ht => nextIn_next (.inl ht))
    fun _ ho t ht => .inr (ho t ht))

end

/-! ### One rule for each primitive -/

section
variable (s : State)

/-- R31: `Recv` stops in the phase it is asked in. -/
theorem recv_proceeds (n : Nat) (hw : s.phase.isWait = true) : (recv n s).Proceeds s := by
  rw [Attempt.Proceeds, recv_holds]
  cases hf : s.failNow with
  | some k => exact nextIn_interrupted_fatal hf _ _ _
  | none =>
    dsimp only
    split
    · exact nextIn_next (.inl hw)
    · exact List.tail_subset _

theorem send_proceeds (bs : List Byte) : (send bs s).Proceeds s :=
  (send_performs s bs).proceeds fun hf => by rw [send_ok bs hf]; trivial

theorem drain_proceeds : (drain s).Proceeds s :=
  (drain_performs s).proceeds fun hf => by rw [drain_ok hf]; trivial

theorem storeRead_proceeds (u : UnitNo) (off n : Nat) : (storeRead u off n s).Proceeds s :=
  (storeRead_performs s u off n).proceeds fun hf => by
    rw [storeRead_holds, hf]
    split
    · exact True.intro
    · exact nextIn_fault _

theorem storeWrite_proceeds (u : UnitNo) (off : Nat) (bs : List Byte) :
    (storeWrite u off bs s).Proceeds s :=
  (storeWrite_performs s u off bs).proceeds fun hf => by
    rw [storeWrite_holds, hf]
    split
    · exact True.intro
    · exact nextIn_fault _

theorem storeFlush_proceeds (u : UnitNo) : (storeFlush u s).Proceeds s :=
  (storeFlush_performs s u).proceeds fun hf => by
    rw [storeFlush_holds, hf]
    split
    · exact True.intro
    · exact nextIn_fault _

theorem storeClose_performs (u : UnitNo) : (storeClose u s).Performs s :=
  storeClose_rule (fun _ => breaksOff_fault _) (breaksOff_fatal _ _ _) Performed.of_updates

theorem storeClose_proceeds (u : UnitNo) : (storeClose u s).Proceeds s :=
  (storeClose_performs s u).proceeds fun hf => by
    rw [storeClose_holds, hf]
    split
    · exact True.intro
    · exact nextIn_fault _

/-! ### Shutdown and the boot commands -/

theorem closeUnit_proceeds (u : UnitNo) : (closeUnit u s).Proceeds s := by
  unfold closeUnit
  split
  · exact (storeFlush_proceeds s u).andThen fun _ t => storeClose_proceeds t u
  · exact .ok rfl

theorem closeAll_proceeds : (closeAll s).Proceeds s :=
  (closeUnit_proceeds s .u0).andThen fun _ t => (closeUnit_proceeds t .u1).andThen fun _ t =>
    (closeUnit_proceeds t .u2).andThen fun _ t => closeUnit_proceeds t .u3

theorem cancelShutdown_ended :
    NextIn (Ended (.halted .cancel) s) (cancelShutdown s).outcome := by
  refine Attempt.EndsIn.outcome ?_
  exact (closeAll_proceeds s).andThen_endsIn fun _ _ => .ok rfl

theorem execQuit_ended : NextIn (Ended (.halted .quit) s) (execQuit s) := by
  refine Attempt.EndsIn.outcome (s := s.withPhase .quit) ?_
  exact (closeAll_proceeds _).andThen_endsIn fun _ _ => .ok rfl

theorem execBootsect_ended : NextIn (Ended .idle s) (execBootsect s) := by
  refine Attempt.EndsIn.outcome (s := s.withPhase .bootsect) ?_
  refine (storeRead_proceeds _ .u0 0 _).andThen_endsIn fun bs t => ?_
  cases storeToWire bs with
  | none => exact nextIn_refused _
  | some wire =>
    exact (send_proceeds (t.withBuf bs) wire).andThen_endsIn fun _ t =>
      (send_proceeds t _).andThen_endsIn fun _ _ => .ok rfl

theorem execHelpboot_ended : NextIn (Ended .idle s) (execHelpboot s) := by
  refine Attempt.EndsIn.outcome (s := s.withPhase .help) ?_
  unfold bootstrapInject
  split
  · exact .ok rfl
  · exact (send_proceeds _ _).andThen_endsIn fun _ t => (send_proceeds t _).andThen_endsIn
      fun _ t => (storeRead_proceeds t .u0 0 _).andThen_endsIn fun block t =>
      (send_proceeds (t.withBuf (bootPrefixBytes t.cfg block)) _).andThen_endsIn fun _ _ => .ok rfl

/-! ### Transfers -/

theorem rdSend_proceeds : (rdSend s).Proceeds s := by
  unfold rdSend
  cases storeToWire s.buf with
  | none => exact nextIn_refused _
  | some wire => exact (send_proceeds s wire).andThen_ok fun _ _ => rfl

theorem wrCommit_proceeds : (wrCommit s).Proceeds s := by
  unfold wrCommit
  cases unwireToStore s.buf with
  | none => exact nextIn_refused _
  | some bytes => exact (storeWrite_proceeds s _ _ bytes).andThen_ok fun _ _ => rfl

/-- One primitive of a transfer: only the two phases that wait have a `Recv` (R31). -/
theorem xferStep_proceeds (b : Byte) {p : XferPhase} (hp : s.phase = .xfer p) :
    (xferStep b p s).Proceeds s := by
  cases p with
  | params => exact (recv_proceeds s _ (by rw [hp]; rfl)).andThen_ok fun _ _ => rfl
  | setup => exact (send_proceeds s _).andThen_ok fun _ _ => rfl
  | ack => exact (send_proceeds s _).andThen_ok fun _ t => (afterAck_keeps t).2
  | rdFetch => exact (storeRead_proceeds s _ _ _).andThen_ok fun _ _ => rfl
  | rdSend => exact rdSend_proceeds s
  | rdDrain => exact (drain_proceeds s).andThen_ok fun _ _ => rfl
  | rdFinal => exact (send_proceeds s _).andThen_ok fun _ _ => rfl
  | wrRecv => exact (recv_proceeds s _ (by rw [hp]; rfl)).andThen_ok fun _ _ => rfl
  | wrDrain => exact (drain_proceeds s).andThen_ok fun _ _ => rfl
  | wrPad => exact .ok (padBuffer_env s)
  | wrAck => exact (send_proceeds s _).andThen_ok fun _ t => (afterWrAck_keeps t).2
  | wrCommit => exact wrCommit_proceeds s
  | wrFlush => exact (storeFlush_proceeds s _).andThen_ok fun _ _ => rfl

/-- With fuel for the phases it has left, a run ends in `IDLE` or is interrupted. -/
theorem xferRun_endsIn {s : State} (b : Byte) {n : Nat} {p : XferPhase} (hp : s.phase = .xfer p)
    (hn : p.left ≤ n) : (xferRun b n s).EndsIn .idle s := by
  induction n generalizing s p with
  | zero => exact absurd hn (Nat.not_le_of_lt (left_pos p))
  | succ n ih =>
    rw [xferRun_xfer hp]
    have hprim := xferStep_proceeds s b hp
    cases hx : xferStep b p s with
    | stop o =>
      rw [hx] at hprim
      exact hprim
    | ok a u =>
      rw [hx] at hprim
      rw [Attempt.ok_andThen]
      rcases leadsTo_of_ok hx with hu | ⟨p', hu, hlt, -⟩
      · rw [xferRun_idle hu]
        exact hu
      · exact (ih hu (by omega)).mono (fun _ _ h => h) fun _ => .interrupted_of_env_subset hprim

theorem transfer_ended (b : Byte) : NextIn (Ended .idle s) (transfer b s) := by
  obtain ⟨⟨p, hp⟩, henv⟩ := enterXfer_inside s
  exact fun t ht => ((xferRun_endsIn b hp (left_le_xferLength p)).outcome t ht).of_env_subset
    (env_subset_of_eq henv)

/-! ### Every command, and the step -/

/-- R173: every command but `QUIT` returns to `IDLE`, or is interrupted. -/
theorem exec_ended {i : Instr} (hi : i ≠ .quit) : NextIn (Ended .idle s) (exec i s) := by
  cases ht : i.isTransfer with
  | true => rw [exec_transfer ht]; exact transfer_ended s _
  | false =>
    cases i with
    | helpboot => exact execHelpboot_ended s
    | bootsect => exact execBootsect_ended s
    | quit => exact absurd rfl hi
    | ignored b => exact nextIn_next (.inl rfl)
    | _ => cases ht

end

/-- What `OnlyQuitCancelAndFaultsLeaveTheCycle` lets a step from `s` end in. -/
def LeavesCycle (s t : State) : Prop :=
  t.phase = .idle ∨ t.phase.isWait = true ∨
  (t.phase = .halted .quit ∧ s.phase = .idle ∧ s.advance.rxq.head? = some 0x51#8) ∨
  (t.phase = .halted .cancel ∧ s.phase = .idle ∧ s.advance.cancel = true) ∨
  (∃ info, t.phase = .fatal info ∧ ∃ m ∈ s.env, m.fail ≠ none)

section
variable {s t : State}

theorem Interrupted.leavesCycle (h : Interrupted s t) : LeavesCycle s t := by
  rcases h with hw | hfatal
  · exact .inr (.inl hw)
  · exact .inr (.inr (.inr (.inr hfatal)))

theorem Ended.leavesCycle (h : Ended .idle s t) : LeavesCycle s t :=
  h.elim .inl Interrupted.leavesCycle

/-- The command byte of `QUIT` is the only one that decodes to it (R102). -/
theorem eq_of_decodeCommand_quit {b : Byte} (h : decodeCommand b = .quit) : b = 0x51#8 := by
  rw [← encodeCommand_decodeCommand b, h, encodeCommand]

/-- `IDLE`: the cancel shutdown, a wait, a fault, `QUIT`, or a command that comes back. -/
theorem step_leavesCycle_of_idle (hp : s.phase = .idle) : NextIn (LeavesCycle s) (step s) := by
  have hmove : s.advance.env ⊆ s.env := List.tail_subset _
  rcases fetchCommand_cases s with ⟨hc, hf⟩ | ⟨-, -, hf⟩ | ⟨b, rest, k, -, -, hk, hf⟩ |
    ⟨b, rest, -, hq, -, hf⟩
  · rw [step_idle_stop hp hf]
    intro t ht
    rcases (cancelShutdown_ended s.advance t ht).of_env_subset hmove with hh | hi
    · exact .inr (.inr (.inr (.inl ⟨hh, hp, hc⟩)))
    · exact hi.leavesCycle
  · rw [step_idle_stop hp hf]
    exact nextIn_next (.inl hp)
  · rw [step_idle_stop hp hf]
    exact fun t ht => (nextIn_interrupted_fatal hk _ _ _ t ht).leavesCycle
  · rw [step_idle_ok hp hf]
    intro t ht
    by_cases hb : decodeCommand b = .quit
    · rw [hb] at ht
      rcases (execQuit_ended _ t ht).of_env_subset hmove with hh | hi
      · have hhead : s.advance.rxq.head? = some 0x51#8 := by
          rw [hq, eq_of_decodeCommand_quit hb]; rfl
        exact .inr (.inr (.inl ⟨hh, hp, hhead⟩))
      · exact hi.leavesCycle
    · exact ((exec_ended _ hb t ht).of_env_subset hmove).leavesCycle

/-- The engine waits inside a transfer only. -/
theorem exists_xfer_of_isWait {f : Phase} (h : f.isWait = true) : ∃ p, f = .xfer p := by
  cases f with
  | xfer p => exact ⟨p, rfl⟩
  | _ => cases h

end

/-- Settles O50: in `IDLE` by the cases of taking a command, in a wait by the transfer that is taken
up there. -/
theorem onlyQuitCancelAndFaultsLeaveTheCycle :
    Obligations.OnlyQuitCancelAndFaultsLeaveTheCycle := by
  intro s t hs h
  rcases hs with hp | ⟨hw, hi⟩
  · exact step_leavesCycle_of_idle hp t h
  · obtain ⟨p, hp⟩ := exists_xfer_of_isWait hw
    rw [step_xfer hp] at h
    have hquit : decodeCommand s.cmd ≠ .quit := by
      intro hq
      rw [hq] at hi
      cases hi
    exact (exec_ended s hquit t h).leavesCycle

end Sys2Proof.Machine

/-! ## The request the resolver builds (42_resolver.md) -/

namespace Sys2Proof.Machine

/-! ### The parameter words as numbers -/

section
variable (w : Word12)

/-- R211: the direction bit is the word's top bit. -/
theorem decodeDirection_write_iff : decodeDirection w = .write ↔ 2048 ≤ w.toNat := by
  have hmsb : w.getLsbD 11 = decide (2048 ≤ w.toNat) :=
    w.msb_eq_getLsbD_last.symm.trans w.msb_eq_decide
  rw [decodeDirection, hmsb]
  by_cases h : 2048 ≤ w.toNat <;> simp [h]

/-- A field of a word, as the quotient and the remainder that cut it out. -/
theorem toNat_field (s l : Nat) : (w.extractLsb' s l).toNat = w.toNat / 2 ^ s % 2 ^ l := by
  rw [BitVec.extractLsb'_toNat, Nat.shiftRight_eq_div_pow]

/-- R213: the page count is bits 10:6, and 32 for the code 0. -/
theorem decodePages_eq :
    decodePages w = if w.toNat / 64 % 32 = 0 then 32 else w.toNat / 64 % 32 := by
  have hfield : (w.extractLsb' 6 5).toNat = w.toNat / 64 % 32 := toNat_field w 6 5
  rw [decodePages, hfield]

/-- R213, R229: no bit set in the page field asks for 32 pages. -/
theorem decodePages_of_field_clear (h : w &&& 0o3700#12 = 0#12) : decodePages w = 32 := by
  have hfield : w.extractLsb' 6 5 = 0#5 := by
    rw [← extractLsb'_and_mask w 0o3700#12 rfl, h]
    rfl
  rw [decodePages, hfield]
  rfl

end

/-- R115, R212: the field stands in bits 5:3 of the CDF word, which are clear in 06201. -/
theorem toNat_cdfWord (field : BitVec 3) : (cdfWord field).toNat = 0o6201 + 8 * field.toNat := by
  revert field
  decide

/-- R214: four bits times 256 fill the word and lose nothing. -/
theorem toNat_index_shift (index : BitVec 4) :
    (index.setWidth 12 <<< 8).toNat = index.toNat * 256 := by
  have h := index.isLt
  rw [BitVec.toNat_shiftLeft, BitVec.toNat_setWidth, Nat.shiftLeft_eq]
  omega

/-- R224: a write of an odd number of pages. -/
theorem halfBlockFlag_iff (dir : Direction) (pages : Nat) :
    halfBlockFlag dir pages = true ↔ dir = .write ∧ pages % 2 = 1 := by
  rw [halfBlockFlag, Bool.and_eq_true, beq_iff_eq, beq_iff_eq]

/-! ### The request in each mode -/

section
variable {cfg : Cfg} (units : PerUnit UnitConfig) (b : Byte) (w : ParamRegs)

theorem resolve_page (h : cfg.mode = .page) :
    resolve cfg units b w = resolveBlock cfg units b (decodePage w.w0 w.w1 w.w2) := by
  rw [resolve, h, decodeParams]

theorem resolve_fixed (h : cfg.mode = .fixed) :
    resolve cfg units b w = resolveBlock cfg units b (decodeFixed w.w0 w.w1 w.w2 w.w3) := by
  rw [resolve, h, decodeParams]

end

/-- Settles O24: each field of the request is one of the PAGE-mode block, or computed of one. -/
theorem pageRequestFields : Obligations.PageRequestFields := by
  rintro cfg units b w tr hm rfl
  rw [resolve_page units b w hm]
  exact ⟨rfl, rfl, decodeDirection_write_iff w.w0, decodePages_eq w.w0, toNat_field w.w0 3 3, rfl,
    rfl, rfl, toNat_cdfWord _, rfl, rfl, halfBlockFlag_iff _ _, toNat_neg12 _⟩

/-- Settles O25: each field of the request is one of the FIXED-mode block, or computed of one. Twice
a count is even, so that no half block is left. -/
theorem fixedRequestFields : Obligations.FixedRequestFields := by
  rintro cfg units b w tr hm rfl
  rw [resolve_fixed units b w hm]
  have hsub : (w.w0.extractLsb' 0 3).toNat = w.w0.toNat % 8 := by simp
  have hbuffer : ((w.w1.extractLsb' 0 4).setWidth 12 <<< 8).toNat = w.w1.toNat % 16 * 256 := by
    simpa using (toNat_index_shift _).trans (congrArg (· * 256) (toNat_field w.w1 0 4))
  have hhalf : ∀ dir, halfBlockFlag dir (2 * w.w3.toNat) = false := fun dir => by
    rw [halfBlockFlag, Nat.mul_mod_right, Bool.and_eq_false_iff]
    exact .inr rfl
  exact ⟨rfl, rfl, decodeDirection_write_iff w.w0, hsub, hbuffer, toNat_field w.w1 4 3, rfl, rfl,
    toNat_cdfWord _, rfl, rfl, hhalf _, toNat_neg12 _⟩

/-- Settles O29: the two page fields decode to the same block. -/
theorem zeroPagesMeansThirtyTwo : Obligations.ZeroPagesMeansThirtyTwo := by
  intro cfg units b w hm hclear
  rw [resolve_page units b w hm, decodePage, decodePages_of_field_clear w.w0 hclear]

/-! ### The four checks, read off the request -/

/-- The four checks as they stand in a request: of its own fields and the row of its unit. -/
def TransferRequest.checks (cfg : Cfg) (u : UnitConfig) (tr : TransferRequest) : Checks where
  unit := unitUnavailable u
  protect := protectionViolation tr.dir u
  bound := boundOverrun cfg tr.startBlock tr.pageCount
  resident := residentOverlap cfg.mode tr.field tr.bufferAddress tr.totalWords

theorem resolve_ok (cfg : Cfg) (units : PerUnit UnitConfig) (b : Byte) (w : ParamRegs) :
    (resolve cfg units b w).ok =
      okFlag ((resolve cfg units b w).checks cfg (units.get (resolve cfg units b w).unit)) := rfl

theorem resolve_ack (cfg : Cfg) (units : PerUnit UnitConfig) (b : Byte) (w : ParamRegs) :
    (resolve cfg units b w).ack = firstAck cfg (resolve cfg units b w).dir
      ((resolve cfg units b w).checks cfg (units.get (resolve cfg units b w).unit)) := rfl

/-- R217: a request is accepted when no check fails. -/
theorem okFlag_iff (c : Checks) : okFlag c = true ↔
    c.unit = false ∧ c.protect = false ∧ c.bound = false ∧ c.resident = false := by
  simp [okFlag, and_assoc]

/-- R217: the positive acknowledgment is the direction's (R211). -/
theorem firstAck_accepted {cfg : Cfg} {dir : Direction} {c : Checks} (h : okFlag c = true) :
    firstAck cfg dir c = positiveAck cfg dir := if_pos h

/-- R217, R218: the negative acknowledgment has a bit for each failing check but the first, whose
bit is none. -/
theorem firstAck_rejected {cfg : Cfg} {dir : Direction} {c : Checks} (h : okFlag c = false) :
    firstAck cfg dir c = 0o2000#12 ||| reasonBit c.protect cfg.bProtect |||
      reasonBit c.bound cfg.bBound ||| reasonBit c.resident cfg.bResident := by
  have hunit : reasonBit c.unit Config.bUnavail = 0#12 := ite_self _
  rw [firstAck, if_neg (Bool.not_eq_true _ ▸ h), nack, reasonBits, hunit, BitVec.zero_or,
    ← BitVec.or_assoc, ← BitVec.or_assoc, Config.ackNack]

/-- R220, R36: check 2 fails on a protected unit in use only. -/
theorem protectionViolation_iff (dir : Direction) (u : UnitConfig) :
    protectionViolation dir u = true ↔
      (dir = .write ∧ u.inUse = true ∧ u.writeProtect = true) ∨
      (dir = .read ∧ u.inUse = true ∧ u.readProtect = true) := by
  cases dir with
  | read => simp [protectionViolation, UnitConfig.readProtected]
  | write => simp [protectionViolation, UnitConfig.writeProtected]

/-- R221: check 3 fails on a transfer that ends past the last block. -/
theorem boundOverrun_iff (cfg : Cfg) (start pages : Nat) :
    boundOverrun cfg start pages = true ↔ start + ceil2 pages > cfg.numberOfBlocks :=
  decide_eq_true_iff

/-- R222: check 4 fails in PAGE mode, on a buffer in field 0 that runs into the resident page. -/
theorem residentOverlap_iff (mode : Mode) (field : BitVec 3) (buffer : Word12) (words : Nat) :
    residentOverlap mode field buffer words = true ↔
      mode = .page ∧ field = 0#3 ∧ buffer.toNat + words > 0o7600 := by
  rw [residentOverlap, Bool.and_eq_true, Bool.and_eq_true, beq_iff_eq, beq_iff_eq,
    decide_eq_true_iff, and_assoc]
  rfl

/-- R217 to R222: what a request must meet to be accepted. -/
theorem okFlag_checks_iff (cfg : Cfg) (u : UnitConfig) (tr : TransferRequest) :
    okFlag (tr.checks cfg u) = true ↔ u.inUse = true ∧
      ¬(tr.dir = .write ∧ u.writeProtect = true) ∧ ¬(tr.dir = .read ∧ u.readProtect = true) ∧
      tr.startBlock + ceil2 tr.pageCount ≤ cfg.numberOfBlocks ∧
      ¬(cfg.mode = .page ∧ tr.field = 0#3 ∧
        tr.bufferAddress.toNat + tr.totalWords > 0o7600) := by
  have hunit : unitUnavailable u = false ↔ u.inUse = true := by simp [unitUnavailable]
  have hprotect : u.inUse = true → (protectionViolation tr.dir u = false ↔
      ¬(tr.dir = .write ∧ u.writeProtect = true) ∧
        ¬(tr.dir = .read ∧ u.readProtect = true)) := fun hu => by
    rw [Bool.eq_false_iff, ne_eq, protectionViolation_iff, not_or]
    simp only [hu, true_and]
  have hbound : boundOverrun cfg tr.startBlock tr.pageCount = false ↔
      tr.startBlock + ceil2 tr.pageCount ≤ cfg.numberOfBlocks := by
    rw [Bool.eq_false_iff, ne_eq, boundOverrun_iff, gt_iff_lt, not_lt]
  rw [okFlag_iff, TransferRequest.checks, hunit, Bool.eq_false_iff (b := residentOverlap ..), ne_eq,
    residentOverlap_iff, hbound]
  exact and_congr_right fun hu => by rw [hprotect hu, and_assoc]

/-- A reason bit stands for its check, however the check is written. -/
theorem reasonBit_eq {fails : Bool} {P : Prop} [Decidable P] (h : fails = true ↔ P)
    (bit : Word12) : reasonBit fails bit = if P then bit else 0#12 := if_congr h rfl rfl

/-- Settles O27: each check is read off the request, in the flag and in the word. -/
theorem checksSetOkAndAck : Obligations.ChecksSetOkAndAck := by
  rintro cfg units b w tr u protect bound resident rfl rfl rfl rfl rfl
  rw [resolve_ok, resolve_ack]
  generalize resolve cfg units b w = tr
  generalize units.get tr.unit = u
  refine ⟨okFlag_checks_iff cfg u tr, fun hok => ?_, fun hok => ?_⟩
  · rw [firstAck_accepted hok]
    cases tr.dir <;> rfl
  · rw [firstAck_rejected hok]
    exact congrArg₂ (· ||| ·) (congrArg₂ (0o2000#12 ||| · ||| ·)
      (reasonBit_eq (protectionViolation_iff ..) _) (reasonBit_eq (boundOverrun_iff ..) _))
      (reasonBit_eq (residentOverlap_iff ..) _)

/-- Settles O28: with the other checks met, the boundary check alone decides, and its bit alone is
in the word. -/
theorem acceptsExactlyUpToTheBound : Obligations.AcceptsExactlyUpToTheBound := by
  rintro cfg units b w tr rfl hu hwrite hread hbuffer
  rw [resolve_ok, resolve_ack]
  generalize resolve cfg units b w = tr at *
  generalize units.get tr.unit = u at *
  have hprotect : protectionViolation tr.dir u = false := by
    rw [Bool.eq_false_iff, ne_eq, protectionViolation_iff]
    rintro (⟨hd, -, hp⟩ | ⟨hd, -, hp⟩)
    · exact Bool.false_ne_true ((hwrite hd).symm.trans hp)
    · exact Bool.false_ne_true ((hread hd).symm.trans hp)
  have hresident :
      residentOverlap cfg.mode tr.field tr.bufferAddress tr.totalWords = false := by
    rw [Bool.eq_false_iff, ne_eq, residentOverlap_iff]
    rintro ⟨hm, hf, hover⟩
    exact (hbuffer hm).elim (· hf) (Nat.not_le_of_lt hover)
  have hchecks : tr.checks cfg u =
      ⟨false, false, boundOverrun cfg tr.startBlock tr.pageCount, false⟩ := by
    rw [TransferRequest.checks, hprotect, hresident, unitUnavailable, hu, Bool.not_true]
  rw [hchecks]
  refine ⟨?_, fun hover => ?_⟩
  · rw [okFlag_iff, Bool.eq_false_iff (b := boundOverrun ..), ne_eq, boundOverrun_iff]
    simp
  · rw [(boundOverrun_iff ..).2 hover, firstAck_rejected rfl]
    simp [reasonBit]

end Sys2Proof.Machine

/-! ## A rejected transfer performs no store primitive (42_resolver.md R227) -/

namespace Sys2Proof.Machine

/-- From `s` to `t` no store is changed, and no store primitive's event is recorded. -/
structure NoStoreAccess (s t : State) : Prop where
  stores : t.stores = s.stores
  trace : ∃ events, t.trace = s.trace ++ events ∧ ∀ e ∈ events, e.isStoreEvent = false

section
variable {s t r : State}

theorem NoStoreAccess.of_trace_eq (htrace : t.trace = s.trace := by simp)
    (hst : t.stores = s.stores := by simp) : NoStoreAccess s t := ⟨hst, [], by simp [htrace], nofun⟩

theorem NoStoreAccess.of_event {e : Event} (htrace : t.trace = s.trace ++ [e])
    (he : e.isStoreEvent = false) (hst : t.stores = s.stores := by simp) :
    NoStoreAccess s t := ⟨hst, [e], htrace, by simpa using he⟩

theorem NoStoreAccess.trans (h : NoStoreAccess s t) (h' : NoStoreAccess t r) :
    NoStoreAccess s r := by
  obtain ⟨hst, es, he, hn⟩ := h
  obtain ⟨hst', es', he', hn'⟩ := h'
  refine ⟨hst'.trans hst, es ++ es', by rw [he', he, List.append_assoc], fun e hm => ?_⟩
  exact (List.mem_append.1 hm).elim (hn e) (hn' e)

end

/-- What holds in each phase of the rejected transfer `i` of the request `tr`: no executor is ever
entered (R176). -/
def RejectedPhase (i : Instr) (tr : TransferRequest) (s : State) : XferPhase → Prop
  | .params => s.request i = tr
  | .setup | .ack => s.tr = tr
  | _ => False

/-- The invariant of a rejected transfer's run from `s`. -/
def Rejected (i : Instr) (tr : TransferRequest) (s t : State) : Prop :=
  NoStoreAccess s t ∧ ∀ p, t.phase = .xfer p → RejectedPhase i tr t p

section
variable {i : Instr} {tr : TransferRequest} {s t : State}

theorem Rejected.toXfer {p : XferPhase} (h : NoStoreAccess s t) (hp : RejectedPhase i tr t p) :
    Rejected i tr s (t.toXfer p) := by
  refine ⟨h.trans .of_trace_eq, fun q hq => ?_⟩
  obtain rfl : p = q := by simpa using hq
  cases p <;> exact hp

/-- R176: after its acknowledgment a rejected transfer is over. -/
theorem Rejected.afterAck (h : NoStoreAccess s t) (hok : t.tr.ok = false) :
    Rejected i tr s (afterAck t) := by
  rw [afterAck_rejected hok]
  exact ⟨h.trans .of_trace_eq, nofun⟩

/-- A phase of a rejected transfer that sends, and then updates the state. -/
theorem send_rejected {bs : List Byte} {f : State → State} (h : NoStoreAccess s t)
    (hf : ∀ u, NoStoreAccess s u → u.tr = t.tr → Rejected i tr s (f u)) :
    ((send bs t).andThen fun _ u => .ok () (f u)).Holds (fun _ u => Rejected i tr s u)
      (NextIn (NoStoreAccess s)) :=
  (Attempt.holds_andThen ..).2 (send_rule (fun _ => nextIn_next (h.trans (.of_event rfl rfl)))
    (hf _ (h.trans (.of_event rfl rfl)) rfl))

theorem xferParams_rejected (h : NoStoreAccess s t) (hr : t.request i = tr) :
    (xferParams (encodeCommand i) t).Holds (fun _ u => Rejected i tr s u)
      (NextIn (NoStoreAccess s)) := by
  refine (Attempt.holds_andThen ..).2 (recv_rule
    (fun _ => nextIn_next (h.trans (.of_event rfl rfl)))
    (nextIn_next (h.trans .of_trace_eq))
    fun _ => Rejected.toXfer (h.trans (.of_event rfl rfl)) ?_)
  rw [← hr, advance_rxq_arrived]
  rfl

/-- Every primitive of a rejected transfer keeps the invariant, whatever the environment does. -/
theorem xferStep_rejected {p : XferPhase} (hok : tr.ok = false) (h : NoStoreAccess s t)
    (hp : RejectedPhase i tr t p) :
    (xferStep (encodeCommand i) p t).Holds (fun _ u => Rejected i tr s u)
      (NextIn (NoStoreAccess s)) := by
  cases p with
  | params => exact xferParams_rejected h hp
  | setup =>
    exact send_rejected (f := fun u => u.toXfer .ack) h fun u hu htr =>
      Rejected.toXfer hu (htr.trans hp)
  | ack =>
    refine send_rejected (f := afterAck) h fun u hu htr => Rejected.afterAck hu ?_
    rw [htr, hp, hok]
  | _ => exact hp.elim

/-- Begun or taken up, a rejected transfer starts with the invariant: a sound wait for write data
holds an accepted request. -/
theorem State.Serves.rejected (h : s.Serves i tr) (hok : tr.ok = false) :
    Rejected i tr s (enterXfer s) := by
  rcases h with ⟨hp, rfl⟩ | ⟨hp, hs, rfl⟩
  · rw [enterXfer_atParams hp]
    exact Rejected.toXfer .of_trace_eq rfl
  · obtain ⟨-, ⟨-, haccepted, -⟩, -⟩ := hs.inTransfer hp
    exact absurd (haccepted.symm.trans hok) nofun

theorem transfer_rejected (h : s.Serves i tr) (hok : tr.ok = false) :
    NextIn (NoStoreAccess s) (transfer (encodeCommand i) s) := by
  have hrun := xferRun_holds (b := encodeCommand i) (I := Rejected i tr s)
    (Q := NextIn (NoStoreAccess s)) (fun p t hp ht => xferStep_rejected hok ht.1 (ht.2 p hp))
    xferLength _ (h.rejected hok)
  exact Attempt.holds_outcome (hrun.mono (fun _ _ ht => nextIn_next ht.1) fun _ ho => ho)

end

/-- Settles O35: the invariant `Rejected`, carried through the run. -/
theorem rejectedTransferTouchesNoStore : Obligations.RejectedTransferTouchesNoStore := by
  intro i s t tr hi hserves hok h
  rw [exec_transfer hi] at h
  have hquiet := transfer_rejected hserves hok t h
  exact ⟨hquiet.stores, hquiet.trace⟩

end Sys2Proof.Machine

/-! ## The framing of a transfer (42_resolver.md R226, R230; 41_dispatcher.md R176) -/

namespace Sys2Proof.Machine

/-! ### From the command to the first acknowledgment -/

/-- The transfer `i`, begun or taken up at its parameter block in `s`, after the acknowledgment is
sent and before the branch that follows it: three primitives, each after a move of the
environment. -/
def State.acknowledged (s : State) (i : Instr) : State :=
  { s.advance.advance.advance with
    phase := .xfer .ack
    rxq := (s.rxq ++ s.arrived 3).drop s.paramLength
    w := s.paramRegs
    tr := s.request i
    tx := s.tx ++ setupBytes (s.request i) ++ encodeControlWord (s.request i).ack
    trace := s.trace ++ [.recv s.paramBlock, .send (setupBytes (s.request i)),
      .send (encodeControlWord (s.request i).ack)] }

/-- Bytes that arrive once the parameter block is taken join what is left of the queue. -/
theorem drop_paramBlock_arrived {s : State} (h : s.paramLength ≤ (s.rxq ++ s.arrived 1).length) :
    s.advance.rxq.drop s.paramLength ++ s.advance.arrived 2 =
      (s.rxq ++ s.arrived 3).drop s.paramLength := by
  rw [← advance_rxq_arrived] at h
  rw [← List.drop_append_of_le_length h, advance_arrived]

section
variable {s : State}

/-- R201: the parameter block is queued, and taken. -/
theorem xferParams_ok {i : Instr} (hf : s.failNow = none)
    (hlen : s.paramLength ≤ (s.rxq ++ s.arrived 1).length) :
    xferParams (encodeCommand i) s = .ok () (((((s.advance.withRxq
      (s.advance.rxq.drop s.paramLength)).record (.recv s.paramBlock)).withParams
        s.paramRegs).withRequest (s.request i)).toXfer .setup) := by
  rw [State.request, State.paramRegs, State.paramBlock, ← advance_rxq_arrived]
  rw [← advance_rxq_arrived] at hlen
  exact congrArg (Attempt.andThen · _) (recv_ok hf hlen)

/-- R226: the setup words are sent. -/
theorem xferSetup_ok (hf : s.failNow = none) : xferSetup s = .ok ()
    (((s.advance.withTx (s.tx ++ setupBytes s.tr)).record (.send (setupBytes s.tr))).toXfer
      .ack) := by
  rw [xferSetup, send_ok _ hf, Attempt.ok_andThen]

/-- R176: the first acknowledgment is sent. -/
theorem xferAck_ok (hf : s.failNow = none) : xferAck s = .ok () (afterAck
    ((s.advance.withTx (s.tx ++ encodeControlWord s.tr.ack)).record
      (.send (encodeControlWord s.tr.ack)))) := by
  rw [xferAck, send_ok _ hf, Attempt.ok_andThen]

/-- R201, R226, R176: with the parameter block queued and no primitive failing, a transfer gets to
its acknowledgment. -/
theorem xferRun_acknowledges {i : Instr} (n : Nat) (hp : s.phase = .xfer .params)
    (hf : NoFailures s) (hlen : s.paramLength ≤ (s.rxq ++ s.arrived 1).length) :
    xferRun (encodeCommand i) (n + 3) s =
      xferRun (encodeCommand i) n (afterAck (s.acknowledged i)) := by
  rw [xferRun_xfer hp, xferStep, xferParams_ok (headFail_of_noFailures hf) hlen,
    Attempt.ok_andThen, xferRun_xfer (toXfer_phase _ _), xferStep,
    xferSetup_ok, Attempt.ok_andThen,
    xferRun_xfer (toXfer_phase _ _), xferStep, xferAck_ok, Attempt.ok_andThen]
  · congr 2
    rw [State.acknowledged, ← drop_paramBlock_arrived hlen]
    simp [State.record, State.withTx, State.advance, arrived_succ]
  · exact headFail_of_noFailures hf.advance.advance
  · exact headFail_of_noFailures hf.advance

/-- R230: begun or taken up at its parameter block, a transfer that the environment lets through
goes on from its acknowledgment. -/
theorem exec_acknowledges {i : Instr} (hi : i.isTransfer = true) (hp : s.AtParams)
    (hf : NoFailures s) (hlen : s.paramLength ≤ (s.rxq ++ s.arrived 1).length) :
    exec i s = (xferRun (encodeCommand i) 6 (afterAck (s.acknowledged i))).outcome := by
  rw [exec_transfer hi, transfer, enterXfer_atParams hp]
  exact congrArg Attempt.outcome (xferRun_acknowledges (s := s.toXfer .params) 6 rfl hf hlen)

theorem length_paramBlock (hlen : s.paramLength ≤ (s.rxq ++ s.arrived 1).length) :
    s.paramBlock.length = s.paramLength := List.length_take_of_le hlen

/-- R218: the unit of an accepted request is in use. -/
theorem inUse_of_request_ok {i : Instr} (h : (s.request i).ok = true) :
    (s.units.get (s.request i).unit).inUse = true := by
  rw [State.request, resolve_ok, okFlag_checks_iff] at h
  exact h.1

end

/-! ### An executor always has a next state -/

/-- What each phase of an executor needs to have a next state, whatever the environment does: the
store it works on open, and lists of even length for the codec (R145, R146). -/
def Serviceable (s : State) : XferPhase → Prop
  | .params | .setup | .ack => False
  | .rdFetch | .wrRecv => s.isOpen.get s.tr.unit = true ∧ s.tr.totalBytes % 2 = 0
  | .rdSend => s.buf.length % 2 = 0
  | .rdDrain | .rdFinal => True
  | .wrDrain | .wrPad | .wrAck | .wrCommit =>
    s.isOpen.get s.tr.unit = true ∧ s.buf.length % 2 = 0
  | .wrFlush => s.isOpen.get s.tr.unit = true

/-- The engine is in an executor's phase that has what it needs, or the transfer is over. -/
def Executing (s : State) : Prop := ∀ p, s.phase = .xfer p → Serviceable s p

/-- The outcome is a next state. -/
def HasNext (o : Host.Outcome State Fault Refusal) : Prop := ∃ t, o = .next t

theorem hasNext_next (s : State) : HasNext (.next s) := ⟨s, rfl⟩

section
variable {s : State}

theorem executing_toXfer {p : XferPhase} (h : Serviceable s p) : Executing (s.toXfer p) := by
  intro q hq
  obtain rfl : p = q := by simpa using hq
  cases p <;> exact h

theorem executing_goIdle (s : State) : Executing s.goIdle := nofun

/-- A primitive of an executor is done in a state of the invariant, or stops with a next state. -/
abbrev KeepsExecuting (x : Attempt Unit) : Prop := x.Holds (fun _ t => Executing t) HasNext

/-- A phase that sends, and then updates the state. -/
theorem send_executing {bs : List Byte} {f : State → State}
    (hf : Executing (f ((s.advance.withTx (s.tx ++ bs)).record (.send bs)))) :
    KeepsExecuting ((send bs s).andThen fun _ t => .ok () (f t)) :=
  (Attempt.holds_andThen ..).2 (send_rule (fun _ => hasNext_next _) hf)

theorem rdFetch_executing (ho : s.isOpen.get s.tr.unit = true) (hn : s.tr.totalBytes % 2 = 0) :
    KeepsExecuting (rdFetch s) := by
  refine (Attempt.holds_andThen ..).2 (storeRead_rule (absurd ho) (hasNext_next _)
    (executing_toXfer ?_))
  rw [Serviceable, withBuf_buf, Store.length_readBytes, hn]

theorem rdSend_executing (he : s.buf.length % 2 = 0) : KeepsExecuting (rdSend s) := by
  obtain ⟨wire, hw, -⟩ := storeToWire_even he
  rw [rdSend, hw]
  exact send_executing (f := fun t => t.toXfer .rdDrain) (executing_toXfer trivial)

theorem drainCheck_executing {next : XferPhase}
    (hnext : ∀ q e d, Serviceable (((s.advance.withRxq q).record e).withDesync d) next) :
    KeepsExecuting (drainCheck next s) :=
  (Attempt.holds_andThen ..).2
    (drain_rule (fun _ => hasNext_next _) (executing_toXfer (hnext _ _ _)))

theorem wrRecv_executing (ho : s.isOpen.get s.tr.unit = true) (hn : s.tr.totalBytes % 2 = 0) :
    KeepsExecuting (wrRecv s) := by
  refine (Attempt.holds_andThen ..).2 (recv_rule (fun _ => hasNext_next _) (hasNext_next _)
    fun hle => executing_toXfer ⟨ho, ?_⟩)
  rw [withBuf_buf, List.length_take_of_le hle, hn]

/-- R253: the pad is one page of bytes, an even number. -/
theorem wrPad_executing (ho : s.isOpen.get s.tr.unit = true) (he : s.buf.length % 2 = 0) :
    KeepsExecuting (wrPad s) := by
  refine executing_toXfer ⟨?_, ?_⟩
  · rw [padBuffer_isOpen, padBuffer_tr, padded_unit, ho]
  · rw [padBuffer_buf, paddedData]
    split
    · rw [List.length_append, List.length_replicate, Nat.add_mod, he]
      rfl
    · exact he

theorem afterWrAck_executing (h : Serviceable s .wrCommit) : Executing (afterWrAck s) := by
  cases hd : s.desync with
  | true => rw [afterWrAck_desync hd]; exact executing_goIdle s
  | false => rw [afterWrAck_commit hd]; exact executing_toXfer h

theorem wrCommit_executing (ho : s.isOpen.get s.tr.unit = true) (he : s.buf.length % 2 = 0) :
    KeepsExecuting (wrCommit s) := by
  obtain ⟨bytes, hbytes, -⟩ := unwireToStore_even he
  rw [wrCommit, hbytes]
  exact (Attempt.holds_andThen ..).2 (storeWrite_rule (absurd ho) (fun _ => hasNext_next _)
    (executing_toXfer ho))

theorem wrFlush_executing (ho : s.isOpen.get s.tr.unit = true) : KeepsExecuting (wrFlush s) :=
  (Attempt.holds_andThen ..).2 (storeFlush_rule (absurd ho) (hasNext_next _) (executing_goIdle _))

/-- Every primitive of an executor leaves the next phase what it needs. -/
theorem xferStep_executing (b : Byte) {p : XferPhase} (h : Serviceable s p) :
    KeepsExecuting (xferStep b p s) := by
  cases p with
  | params | setup | ack => exact h.elim
  | rdFetch => exact rdFetch_executing h.1 h.2
  | rdSend => exact rdSend_executing h
  | rdDrain => exact drainCheck_executing fun _ _ _ => trivial
  | rdFinal => exact send_executing (f := State.goIdle) (executing_goIdle _)
  | wrRecv => exact wrRecv_executing h.1 h.2
  | wrDrain => exact drainCheck_executing fun _ _ _ => h
  | wrPad => exact wrPad_executing h.1 h.2
  | wrAck => exact send_executing (f := afterWrAck) (afterWrAck_executing h)
  | wrCommit => exact wrCommit_executing h.1 h.2
  | wrFlush => exact wrFlush_executing h

theorem xferRun_hasNext (b : Byte) (n : Nat) (h : Executing s) :
    HasNext (xferRun b n s).outcome := by
  have hrun := xferRun_holds (b := b) (I := Executing) (Q := HasNext)
    (fun p _ hp ht => xferStep_executing b (ht p hp)) n s h
  exact Attempt.holds_outcome (hrun.mono (fun _ t _ => hasNext_next t) fun _ ho => ho)

/-- R176: an executor is entered on an accepted request only, and its unit's store is open. -/
theorem afterAck_executing (ho : s.tr.ok = true → s.isOpen.get s.tr.unit = true)
    (hn : s.tr.totalBytes % 2 = 0) : Executing (afterAck s) := by
  cases hok : s.tr.ok with
  | false => rw [afterAck_rejected hok]; exact executing_goIdle s
  | true =>
    cases hd : s.tr.dir with
    | read => rw [afterAck_read hok hd]; exact executing_toXfer ⟨ho hok, hn⟩
    | write => rw [afterAck_write hok hd]; exact executing_toXfer ⟨ho hok, hn⟩

/-- R48, R70: a run only adds to the trace and to what was sent. -/
theorem xferRun_grows (b : Byte) (n : Nat) (s : State) : OutcomeGrows s (xferRun b n s).outcome :=
  Attempt.GrowsFrom.outcome
    (xferRun_holds (I := Grows s) (fun p t _ ht => (xferStep_grows t b p).trans ht) n s (.refl s))

end

/-- Settles O30: the three events stand in the trace at the acknowledgment; from there an executor
has a next state, and only adds to the trace. -/
theorem transferFraming : Obligations.TransferFraming := by
  intro i s hi hp hf hlen hopen
  have hexec := exec_acknowledges hi hp hf hlen
  have hready : Executing (afterAck (s.acknowledged i)) :=
    afterAck_executing (fun hok => (hopen _).trans (inUse_of_request_ok hok))
      (Nat.mul_mod_right 2 _)
  obtain ⟨t, ht⟩ := xferRun_hasNext (encodeCommand i) 6 hready
  obtain ⟨later, hlater⟩ := (xferRun_grows _ _ _ t ht).trace
  rw [(afterAck_keeps _).1] at hlater
  refine ⟨t, later, hexec.trans ht, hlater.symm, ?_, length_setupBytes _,
    length_encodeControlWord _⟩
  rw [length_paramBlock hlen, State.paramLength]
  cases s.cfg.mode <;> rfl

end Sys2Proof.Machine

/-! ## The executors (43_executors.md R240 to R257) -/

namespace Sys2Proof.Machine

section
variable {s : State} {b : Byte} {i : Instr} {n : Nat}

/-- States are equal when they are but for the trace, and their traces are. -/
theorem State.eq_of_trace_eq {s t : State} (hrest : { s with trace := [] } = { t with trace := [] })
    (htrace : s.trace = t.trace) : s = t := by
  cases s; cases t; simp_all

/-! ### What arrives while a transfer goes on -/

/-- The bytes of the first moves are those of some of them and those of the moves after these. -/
theorem arrived_add (s : State) (j k : Nat) :
    s.arrived (j + k) = s.arrived j ++ ((s.env.drop j).take k).flatMap EnvMove.arrive := by
  rw [State.arrived, List.take_add, List.flatMap_append, ← State.arrived]

/-- Bytes taken from the front of a queue are the same when more have arrived behind them. -/
theorem drop_queue_arrived (j k : Nat) (hlen : n ≤ (s.rxq ++ s.arrived j).length) :
    (s.rxq ++ s.arrived j).drop n ++ ((s.env.drop j).take k).flatMap EnvMove.arrive =
      (s.rxq ++ s.arrived (j + k)).drop n := by
  rw [arrived_add, ← List.append_assoc, List.drop_append_of_le_length hlen]

/-- The moves that are left after three. -/
theorem env_advance_thrice (s : State) : s.advance.advance.advance.env = s.env.drop 3 := by
  simp only [advance_env, ← List.drop_one, List.drop_drop]

/-- What one move brings, after `k` moves. -/
theorem headArrive_drop (l : List EnvMove) (k : Nat) :
    headArrive (l.drop k) = ((l.drop k).take 1).flatMap EnvMove.arrive := by
  cases l.drop k <;> simp [headArrive]

/-! ### From the first acknowledgment of an accepted request to its executor -/

/-- R211, R217: an accepted request has the positive acknowledgment of its direction. -/
theorem request_ack_of_ok (hok : (s.request i).ok = true) :
    (s.request i).ack = positiveAck s.cfg (s.request i).dir := by
  rw [State.request, resolve_ok] at hok
  rw [State.request, resolve_ack, firstAck_accepted hok]

/-- `s` after the acknowledgment of the accepted transfer `i`, in the first phase `p` of the
executor, whose start clears `desync` (R240, R250). -/
def State.executing (s : State) (i : Instr) (p : XferPhase) : State :=
  ((s.acknowledged i).withDesync false).toXfer p

theorem executing_tr (s : State) (i : Instr) (p : XferPhase) :
    (s.executing i p).tr = s.request i := rfl

/-- R226, R176: what has been sent when an executor starts. -/
theorem executing_tx {dir : Direction} (hok : (s.request i).ok = true)
    (hd : (s.request i).dir = dir) (p : XferPhase) : (s.executing i p).tx =
      s.tx ++ setupBytes (s.request i) ++ encodeControlWord (positiveAck s.cfg dir) := by
  rw [← hd, ← request_ack_of_ok hok]; rfl

/-- R176: the events up to the start of an executor stand before its own. -/
theorem executing_trace {dir : Direction} (hok : (s.request i).ok = true)
    (hd : (s.request i).dir = dir) (p : XferPhase) (later : List Event) :
    (s.executing i p).trace ++ later =
      s.trace ++ ([.recv s.paramBlock, .send (setupBytes (s.request i)),
        .send (encodeControlWord (positiveAck s.cfg dir))] ++ later) := by
  rw [← hd, ← request_ack_of_ok hok]
  exact List.append_assoc ..

/-- Three primitives have been performed before an executor starts. -/
theorem executing_env (s : State) (i : Instr) (p : XferPhase) :
    (s.executing i p).env = s.env.drop 3 := env_advance_thrice s

/-- The bytes that come with later moves, counted from the executor's start and from the
transfer's. -/
theorem executing_arrive (s : State) (i : Instr) (p : XferPhase) (j k : Nat) :
    (((s.executing i p).env.drop j).take k).flatMap EnvMove.arrive =
      ((s.env.drop (3 + j)).take k).flatMap EnvMove.arrive := by
  rw [executing_env, List.drop_drop]

theorem NoFailures.executing (hf : NoFailures s) (p : XferPhase) :
    NoFailures (s.executing i p) := hf.advance.advance.advance

/-- The parameter block is still covered by what is queued when an executor starts. -/
theorem paramLength_le_queue (hlen : s.paramLength ≤ (s.rxq ++ s.arrived 1).length) (k : Nat) :
    s.paramLength ≤ (s.rxq ++ s.arrived (1 + k)).length := by
  rw [arrived_add, ← List.append_assoc, List.length_append]
  exact hlen.trans (Nat.le_add_right _ _)

/-- What an executor finds queued: all that came after the parameter block. -/
theorem executing_queue (hlen : s.paramLength ≤ (s.rxq ++ s.arrived 1).length) (i : Instr)
    (p : XferPhase) (k : Nat) : (s.executing i p).rxq ++ (s.executing i p).arrived k =
      (s.rxq ++ s.arrived (3 + k)).drop s.paramLength := by
  rw [← drop_queue_arrived 3 k (paramLength_le_queue hlen 2), State.arrived, executing_env]
  rfl

/-- How many bytes an executor finds queued. -/
theorem executing_queue_length (hlen : s.paramLength ≤ (s.rxq ++ s.arrived 1).length) (i : Instr)
    (p : XferPhase) (k : Nat) :
    s.paramLength + ((s.executing i p).rxq ++ (s.executing i p).arrived k).length =
      (s.rxq ++ s.arrived (3 + k)).length := by
  have hle := paramLength_le_queue hlen (2 + k)
  rw [← Nat.add_assoc] at hle
  rw [executing_queue hlen, List.length_drop]
  exact Nat.add_sub_cancel' hle

/-- R176, R240: an accepted read goes on with the read executor. -/
theorem exec_reads (hi : i.isTransfer = true) (hp : s.AtParams) (hf : NoFailures s)
    (hlen : s.paramLength ≤ (s.rxq ++ s.arrived 1).length) (hok : (s.request i).ok = true)
    (hd : (s.request i).dir = .read) :
    exec i s = (xferRun (encodeCommand i) 6 (s.executing i .rdFetch)).outcome := by
  rw [exec_acknowledges hi hp hf hlen, afterAck_read (s := s.acknowledged i) hok hd]
  rfl

/-- R176, R250: an accepted write goes on with the write executor. -/
theorem exec_writes (hi : i.isTransfer = true) (hp : s.AtParams) (hf : NoFailures s)
    (hlen : s.paramLength ≤ (s.rxq ++ s.arrived 1).length) (hok : (s.request i).ok = true)
    (hd : (s.request i).dir = .write) :
    exec i s = (xferRun (encodeCommand i) 6 (s.executing i .wrRecv)).outcome := by
  rw [exec_acknowledges hi hp hf hlen, afterAck_write (s := s.acknowledged i) hok hd]
  rfl

/-- R31: a write that waits for its data is taken up there. -/
theorem exec_wrRecv (hi : i.isTransfer = true) (hp : s.phase = .xfer .wrRecv) :
    exec i s = (xferRun (encodeCommand i) 9 s).outcome := by
  rw [exec_transfer hi, transfer, enterXfer_xfer hp, xferLength]

/-! ### The primitives of the executors -/

/-- A primitive that is done leaves the rest of the run to its state. -/
theorem xferRun_ok {p : XferPhase} {t : State} {x : Attempt Unit} (hp : s.phase = .xfer p)
    (h : xferStep b p s = .ok () t) (hx : xferRun b n t = x) : xferRun b (n + 1) s = x := by
  rw [xferRun_xfer hp, h, Attempt.ok_andThen, hx]

/-- R245: the drain check takes all that is queued. -/
theorem drainCheck_ok (next : XferPhase) (hf : s.failNow = none) :
    drainCheck next s = .ok () ((((s.advance.withRxq []).record (.drain s.advance.rxq)).withDesync
      (desyncFlag s.desync s.advance.rxq)).toXfer next) := by
  rw [drainCheck, drain_ok hf]; rfl

/-- R241: the store is read. -/
theorem rdFetch_ok {data : List Byte} (hopen : s.isOpen.get s.tr.unit = true)
    (hf : s.failNow = none)
    (hdata : (s.stores.get s.tr.unit).readBytes (transferOffset s.tr) s.tr.totalBytes s.draws =
      data) :
    rdFetch s = .ok () ((((s.advance.withDraws (s.draws + s.tr.totalBytes)).record
      (.storeRead s.tr.unit (transferOffset s.tr) s.tr.totalBytes data)).withBuf data).toXfer
        .rdSend) := by
  rw [rdFetch, storeRead_ok _ _ hopen hf, hdata, Attempt.ok_andThen]

/-- R242: the buffer is sent in wire layout. -/
theorem rdSend_ok {wire : List Byte} (hf : s.failNow = none) (hw : storeToWire s.buf = some wire) :
    rdSend s = .ok () (((s.advance.withTx (s.tx ++ wire)).record (.send wire)).toXfer
      .rdDrain) := by
  rw [rdSend, hw]
  simp only
  rw [send_ok _ hf, Attempt.ok_andThen]

/-- R243: the final acknowledgment of a read is sent. -/
theorem rdFinal_ok {final : List Byte} (hf : s.failNow = none)
    (hfinal : encodeControlWord (finalAck s.cfg s.desync) = final) :
    rdFinal s = .ok () ((s.advance.withTx (s.tx ++ final)).record (.send final)).goIdle := by
  rw [rdFinal, hfinal, send_ok _ hf, Attempt.ok_andThen]

/-- R251: the data is queued, and taken. -/
theorem wrRecv_ok (hf : s.failNow = none) (hlen : s.tr.totalBytes ≤ s.advance.rxq.length) :
    wrRecv s = .ok () ((((s.advance.withRxq (s.advance.rxq.drop s.tr.totalBytes)).record
      (.recv (s.advance.rxq.take s.tr.totalBytes))).withBuf
        (s.advance.rxq.take s.tr.totalBytes)).toXfer .wrDrain) := by
  rw [wrRecv, recv_ok hf hlen, Attempt.ok_andThen]

/-- R253: the data is padded to whole blocks. -/
theorem wrPad_ok : wrPad s = .ok ()
    (((s.withBuf (paddedData s.tr s.buf)).withRequest s.tr.padded).toXfer .wrAck) := by
  unfold wrPad padBuffer paddedData TransferRequest.padded; split <;> rfl

/-- R254: the final acknowledgment of a write is sent. -/
theorem wrAck_ok {final : List Byte} (hf : s.failNow = none)
    (hfinal : encodeControlWord (finalAck s.cfg s.desync) = final) :
    wrAck s =
      .ok () (afterWrAck ((s.advance.withTx (s.tx ++ final)).record (.send final))) := by
  rw [wrAck, hfinal, send_ok _ hf, Attempt.ok_andThen]

/-- R256: the buffer is written in store layout. -/
theorem wrCommit_ok {u : UnitNo} {off : Nat} {bytes : List Byte} (hu : s.tr.unit = u)
    (hoff : transferOffset s.tr = off) (hopen : s.isOpen.get u = true) (hf : s.failNow = none)
    (hbytes : unwireToStore s.buf = some bytes) :
    wrCommit s = .ok () (((s.advance.writeStore u off bytes).record
      (.storeWrite u off bytes)).toXfer .wrFlush) := by
  rw [wrCommit, hbytes]
  simp only
  rw [hu, hoff, storeWrite_ok _ _ hopen hf, Attempt.ok_andThen]

/-- R256: the store is flushed. -/
theorem wrFlush_ok {u : UnitNo} (hu : s.tr.unit = u) (hopen : s.isOpen.get u = true)
    (hf : s.failNow = none) :
    wrFlush s = .ok () (s.advance.record (.storeFlush u)).goIdle := by
  rw [wrFlush, hu, storeFlush_ok hopen hf, Attempt.ok_andThen]

/-! ### The final acknowledgment -/

/-- The final acknowledgment that the drain check of an executor leads to, when it takes `extra`
(R243, R254). -/
def State.finalBytes (s : State) (extra : List Byte) : List Byte :=
  encodeControlWord (finalAck s.cfg (desyncFlag s.desync extra))

/-- R243, R254: without a desync before the drain check, the final acknowledgment is `DONE`, or the
desync NACK when the check takes any byte. -/
theorem finalBytes_eq (hd : s.desync = false) (extra : List Byte) : s.finalBytes extra =
    encodeControlWord (if extra = [] then 0#12 else 0o2000#12 ||| s.cfg.bDesync) := by
  rw [State.finalBytes, hd]
  cases extra <;> rfl

/-- R254: after a desync the final acknowledgment is the desync NACK. -/
theorem finalBytes_of_desync {extra : List Byte} (h : desyncFlag s.desync extra = true) :
    s.finalBytes extra = encodeControlWord (0o2000#12 ||| s.cfg.bDesync) := by
  rw [State.finalBytes, h]; rfl

/-! ### The read executor -/

/-- The bytes of the store that a read fetches (R241). -/
def State.fetched (s : State) : List Byte :=
  (s.stores.get s.tr.unit).readBytes (transferOffset s.tr) s.tr.totalBytes s.draws

/-- The bytes that the drain check of a read finds queued, at the executor's third primitive
(R245). -/
def State.drained (s : State) : List Byte := s.rxq ++ s.arrived 3

/-- `s`, at the start of the read executor, after its four primitives; `wire` is what it sent
(R240). -/
def State.readDone (s : State) (wire : List Byte) : State :=
  { s with
    phase := .idle
    rxq := ((s.env.drop 3).take 1).flatMap EnvMove.arrive
    buf := s.fetched
    desync := desyncFlag s.desync s.drained
    draws := s.draws + s.tr.totalBytes
    tx := s.tx ++ wire ++ s.finalBytes s.drained
    cancel := s.advance.advance.advance.advance.cancel
    env := s.advance.advance.advance.advance.env
    trace := s.trace ++ [
      .storeRead s.tr.unit (transferOffset s.tr) s.tr.totalBytes s.fetched, .send wire,
      .drain s.drained, .send (s.finalBytes s.drained)] }

/-- R240: with its store open and no primitive failing, the read executor runs to its end. -/
theorem xferRun_reads (b : Byte) {wire : List Byte} (hp : s.phase = .xfer .rdFetch)
    (hf : NoFailures s) (hopen : s.isOpen.get s.tr.unit = true)
    (hw : storeToWire s.fetched = some wire) :
    xferRun b (n + 4) s = .ok () (s.readDone wire) := by
  have hf1 := hf.advance
  have hf2 := hf1.advance
  have hf3 := hf2.advance
  have hdrained : s.advance.advance.advance.rxq = s.drained := by
    simp [State.drained, arrived_succ]
  have hrest : headArrive s.advance.advance.advance.env =
      ((s.env.drop 3).take 1).flatMap EnvMove.arrive := by
    rw [env_advance_thrice, headArrive_drop]
  refine xferRun_ok hp (rdFetch_ok hopen (headFail_of_noFailures hf) rfl) <|
    xferRun_ok rfl (rdSend_ok (headFail_of_noFailures hf1) hw) <|
    xferRun_ok rfl (drainCheck_ok _ (headFail_of_noFailures hf2)) <|
    xferRun_ok rfl (rdFinal_ok (headFail_of_noFailures hf3) rfl) <|
    (xferRun_idle rfl).trans (congrArg _ ?_)
  rw [State.readDone, ← hdrained, ← hrest]
  exact State.eq_of_trace_eq rfl (by simp [State.finalBytes, State.fetched])

/-! ### The write executor -/

/-- The data that a write takes at the executor's first primitive (R251). -/
def State.received (s : State) : List Byte := (s.rxq ++ s.arrived 1).take s.tr.totalBytes

/-- The bytes that the drain check of a write finds behind the data, at the executor's second
primitive (R245). -/
def State.stray (s : State) : List Byte := (s.rxq ++ s.arrived 2).drop s.tr.totalBytes

/-- R251: a write takes as many bytes as it asks for. -/
theorem length_received (hlen : s.tr.totalBytes ≤ (s.rxq ++ s.arrived 1).length) :
    s.received.length = s.tr.totalBytes := List.length_take_of_le hlen

/-- The data of a write from its command: what came behind the parameter block. -/
theorem executing_received (hlen : s.paramLength ≤ (s.rxq ++ s.arrived 1).length) (i : Instr) :
    (s.executing i .wrRecv).received =
      ((s.rxq ++ s.arrived 4).drop s.paramLength).take (s.request i).totalBytes :=
  congrArg (List.take _) (executing_queue hlen i .wrRecv 1)

/-- The bytes that follow the data of a write from its command. -/
theorem executing_stray (hlen : s.paramLength ≤ (s.rxq ++ s.arrived 1).length) (i : Instr) :
    (s.executing i .wrRecv).stray =
      (s.rxq ++ s.arrived 5).drop (s.paramLength + (s.request i).totalBytes) := by
  rw [← List.drop_drop]
  exact congrArg (List.drop _) (executing_queue hlen i .wrRecv 2)

/-- The data of a write from its command is queued when its executor takes it. -/
theorem executing_data_queued (hlen : s.paramLength ≤ (s.rxq ++ s.arrived 1).length)
    (hdata : s.paramLength + (s.request i).totalBytes ≤ (s.rxq ++ s.arrived 4).length) :
    (s.executing i .wrRecv).tr.totalBytes ≤
      ((s.executing i .wrRecv).rxq ++ (s.executing i .wrRecv).arrived 1).length := by
  have hqueued : _ = (s.rxq ++ s.arrived 4).length := executing_queue_length hlen i .wrRecv 1
  rw [executing_tr]
  omega

/-- R245: what follows the data is a desync. -/
theorem desyncFlag_of_stray (hstray : s.tr.totalBytes < (s.rxq ++ s.arrived 2).length) :
    desyncFlag s.desync s.stray = true := by
  have hne : s.stray ≠ [] := by rwa [State.stray, Ne, List.drop_eq_nil_iff, not_le]
  simp [desyncFlag, hne]

/-- R253, R257: the codec takes the padded data of an accepted write, which is whole blocks. -/
theorem unwireToStore_paddedData {tr : TransferRequest} {data : List Byte}
    (hblocks : tr.WholeBlocks) (hw : tr.AcceptedWrite) (hdata : data.length = tr.totalBytes) :
    ∃ bytes, unwireToStore (paddedData tr data) = some bytes ∧
      bytes.length = 512 * ceil2 tr.pageCount := by
  have hlen := hblocks hw data hdata
  obtain ⟨bytes, hbytes, hsame⟩ := unwireToStore_even (bs := paddedData tr data) (by omega)
  exact ⟨bytes, hbytes, hsame.trans hlen⟩

/-- `s`, at the start of the write executor, after its final acknowledgment is sent and before the
branch that follows it (R250). -/
def State.writeAcknowledged (s : State) : State :=
  { s with
    phase := .xfer .wrAck
    rxq := ((s.env.drop 2).take 1).flatMap EnvMove.arrive
    buf := paddedData s.tr s.received
    tr := s.tr.padded
    desync := desyncFlag s.desync s.stray
    tx := s.tx ++ s.finalBytes s.stray
    cancel := s.advance.advance.advance.cancel
    env := s.advance.advance.advance.env
    trace := s.trace ++ [.recv s.received, .drain s.stray, .send (s.finalBytes s.stray)] }

/-- `s`, at the start of the write executor, after the five primitives and the pad of a write
that nothing follows; `bytes` is the padded data in store layout (R250, R256). -/
def State.written (s : State) (bytes : List Byte) : State :=
  { s with
    phase := .idle
    rxq := ((s.env.drop 2).take 3).flatMap EnvMove.arrive
    stores := s.stores.set s.tr.unit
      ((s.stores.get s.tr.unit).writeBytes (transferOffset s.tr) bytes)
    buf := paddedData s.tr s.received
    tr := s.tr.padded
    desync := false
    tx := s.tx ++ [0#8, 0#8]
    cancel := s.advance.advance.advance.advance.advance.cancel
    env := s.advance.advance.advance.advance.advance.env
    trace := s.trace ++ [.recv s.received, .drain [], .send [0#8, 0#8],
      .storeWrite s.tr.unit (transferOffset s.tr) bytes, .storeFlush s.tr.unit] }

/-- R251, R31: with too few bytes queued a write waits. -/
theorem xferRun_waits_for_data (b : Byte) (hp : s.phase = .xfer .wrRecv) (hf : s.failNow = none)
    (hlen : (s.rxq ++ s.arrived 1).length < s.tr.totalBytes) :
    xferRun b (n + 1) s = .stop (.next s.advance) := by
  rw [← advance_rxq_arrived] at hlen
  rw [xferRun_xfer hp, xferStep, wrRecv, recv_waits hf hlen, Attempt.stop_andThen,
    Attempt.stop_andThen]

/-- R250 to R254: with the data queued and no primitive failing, a write gets to its final
acknowledgment. -/
theorem xferRun_acknowledges_write (b : Byte) (hp : s.phase = .xfer .wrRecv) (hf : NoFailures s)
    (hlen : s.tr.totalBytes ≤ (s.rxq ++ s.arrived 1).length) :
    xferRun b (n + 4) s = xferRun b n (afterWrAck s.writeAcknowledged) := by
  have hf1 := hf.advance
  have hf2 := hf1.advance
  have hreceived : s.advance.rxq.take s.tr.totalBytes = s.received := by
    rw [advance_rxq_arrived]; rfl
  have hstray : s.advance.rxq.drop s.tr.totalBytes ++ headArrive s.advance.env = s.stray := by
    rw [advance_rxq_arrived, advance_env, ← List.drop_one, headArrive_drop,
      drop_queue_arrived 1 1 hlen]
    rfl
  have hrest : headArrive s.advance.advance.env =
      ((s.env.drop 2).take 1).flatMap EnvMove.arrive := by
    simp only [advance_env, ← List.drop_one, List.drop_drop, headArrive_drop]
  rw [← advance_rxq_arrived] at hlen
  refine xferRun_ok hp (wrRecv_ok (headFail_of_noFailures hf) hlen) <|
    xferRun_ok rfl (drainCheck_ok _ (headFail_of_noFailures hf1)) <|
    xferRun_ok rfl wrPad_ok <| xferRun_ok rfl (wrAck_ok (headFail_of_noFailures hf2) rfl) ?_
  rw [State.writeAcknowledged, ← hreceived, ← hstray, ← hrest]
  exact congrArg (fun t => xferRun b n (afterWrAck t))
    (State.eq_of_trace_eq rfl (by simp [State.finalBytes]))

/-- R245, R255: a write that bytes follow ends with its acknowledgment, and commits nothing. -/
theorem xferRun_desynced (b : Byte) (hp : s.phase = .xfer .wrRecv) (hf : NoFailures s)
    (hlen : s.tr.totalBytes ≤ (s.rxq ++ s.arrived 1).length)
    (hd : desyncFlag s.desync s.stray = true) :
    xferRun b (n + 4) s = .ok () s.writeAcknowledged.goIdle := by
  rw [xferRun_acknowledges_write b hp hf hlen, afterWrAck_desync hd, xferRun_idle (goIdle_phase _)]

/-- R250 to R256: a write that nothing follows commits its data and flushes. -/
theorem xferRun_writes (b : Byte) {bytes : List Byte} (hp : s.phase = .xfer .wrRecv)
    (hd : s.desync = false) (hf : NoFailures s) (hopen : s.isOpen.get s.tr.unit = true)
    (hlen : s.tr.totalBytes ≤ (s.rxq ++ s.arrived 1).length)
    (hend : (s.rxq ++ s.arrived 2).length = s.tr.totalBytes)
    (hbytes : unwireToStore (paddedData s.tr s.received) = some bytes) :
    xferRun b (n + 6) s = .ok () (s.written bytes) := by
  have hf3 := hf.advance.advance.advance
  have hstray : s.stray = [] := List.drop_eq_nil_of_le hend.le
  have hflag : s.writeAcknowledged.desync = false := by
    rw [State.writeAcknowledged, hd, hstray]; rfl
  have hfinal : s.finalBytes s.stray = [0#8, 0#8] := by
    rw [State.finalBytes, hd, hstray]
    exact (by decide : encodeControlWord 0#12 = [0#8, 0#8])
  have hqueue : s.writeAcknowledged.advance.advance.rxq =
      ((s.env.drop 2).take 3).flatMap EnvMove.arrive := by
    rw [show 3 = 1 + 2 from rfl, List.take_add, List.flatMap_append, List.drop_drop,
      ← env_advance_thrice]
    simp [State.writeAcknowledged, arrive_succ]
  rw [xferRun_acknowledges_write b hp hf hlen, afterWrAck_commit hflag]
  refine xferRun_ok rfl (wrCommit_ok (padded_unit s.tr) (transferOffset_padded s.tr) hopen
      (headFail_of_noFailures hf3) hbytes) <|
    xferRun_ok rfl (wrFlush_ok (padded_unit s.tr) hopen (headFail_of_noFailures hf3.advance)) <|
    (xferRun_idle rfl).trans (congrArg _ ?_)
  rw [State.written, ← hqueue, ← hfinal, ← hflag]
  exact State.eq_of_trace_eq rfl (by simp [State.writeAcknowledged, hstray])

end

/-! ### The settlements -/

/-- Settles O39: the `Recv` of the data waits. -/
theorem writeWaitsForData : Obligations.WriteWaitsForData := by
  intro i s hi hp hf hlen
  rw [exec_wrRecv hi hp, xferRun_waits_for_data _ hp hf hlen, Attempt.stop_outcome]

/-- Settles O41: the executor's run from the wait. -/
theorem waitingDesyncedWriteCommitsNothing : Obligations.WaitingDesyncedWriteCommitsNothing := by
  intro i s hi hp hf hlen hstray
  have hd := desyncFlag_of_stray hstray
  refine ⟨s.finalBytes s.stray, s.writeAcknowledged.goIdle, finalBytes_of_desync hd, ?_, rfl, hd,
    rfl, rfl, rfl, rfl, rfl, rfl, rfl, rfl, rfl, rfl, rfl⟩
  rw [exec_wrRecv hi hp, xferRun_desynced _ hp hf hlen hd, Attempt.ok_outcome]

/-- Settles O40: a sound wait holds an accepted write, whose store is open and whose padded data is
whole blocks. -/
theorem waitingWriteCompletes : Obligations.WaitingWriteCompletes := by
  intro i s hi hp hs hf hlen hend
  obtain ⟨htransfer, hacc, hd⟩ := hs.inTransfer hp
  have ⟨_, hok, hdir⟩ := hacc
  have hopen := htransfer.isOpen_of_permitted hacc.permitted
  have hblocks : s.tr.WholeBlocks := State.Serves.wholeBlocks (i := i) (.inr ⟨hp, hs, rfl⟩)
  obtain ⟨bytes, hbytes, hlength⟩ :=
    unwireToStore_paddedData hblocks ⟨hdir, hok⟩ (length_received hlen)
  refine ⟨s.received, bytes, s.written bytes, rfl, hbytes, hlength, ?_, rfl, rfl, rfl, rfl, rfl, rfl,
    rfl, rfl, rfl, rfl, rfl, rfl, rfl, rfl⟩
  rw [exec_wrRecv hi hp, xferRun_writes _ hp hd hf hopen hlen hend hbytes, Attempt.ok_outcome]

/-- Settles O38: the acknowledged write waits in `WR_RECV`. -/
theorem acceptedWriteAwaitsData : Obligations.AcceptedWriteAwaitsData := by
  rintro i s tr hi hp hf hlen rfl hok hd hshort
  have hqueued : _ = (s.rxq ++ s.arrived 4).length := executing_queue_length hlen i .wrRecv 1
  have hwaits : ((s.executing i .wrRecv).rxq ++ (s.executing i .wrRecv).arrived 1).length <
      (s.executing i .wrRecv).tr.totalBytes := by
    rw [executing_tr]
    omega
  refine ⟨(s.executing i .wrRecv).advance, ?_, rfl, executing_tx hok hd .wrRecv,
    (List.append_nil _).symm.trans (executing_trace hok hd .wrRecv []), ?_, ?_,
    rfl, rfl, rfl, rfl, rfl, rfl, rfl, rfl, rfl, rfl⟩
  · rw [exec_writes hi hp hf hlen hok hd, xferRun_waits_for_data _ rfl
      (headFail_of_noFailures (hf.executing _)) hwaits, Attempt.stop_outcome]
  · rw [advance_rxq_arrived, executing_queue hlen]
  · rw [advance_env, executing_env, List.tail_drop]

/-- Settles O34: the executor's run from the acknowledgment. -/
theorem desyncedWriteCommitsNothing : Obligations.DesyncedWriteCommitsNothing := by
  rintro i s tr hi hp hf hlen rfl hok hd hdata hmore
  have hqueued : _ = (s.rxq ++ s.arrived 5).length := executing_queue_length hlen i .wrRecv 2
  have hdesync := desyncFlag_of_stray (s := s.executing i .wrRecv) (by rw [executing_tr]; omega)
  have hexec := exec_writes hi hp hf hlen hok hd
  rw [xferRun_desynced _ rfl (hf.executing _) (executing_data_queued hlen hdata) hdesync,
    Attempt.ok_outcome] at hexec
  rw [← executing_received hlen, ← executing_stray hlen]
  exact ⟨(s.executing i .wrRecv).finalBytes (s.executing i .wrRecv).stray,
    (s.executing i .wrRecv).writeAcknowledged.goIdle, finalBytes_of_desync hdesync, hexec, rfl,
    hdesync, congrArg (· ++ _) (executing_tx hok hd .wrRecv),
    executing_trace hok hd .wrRecv _, executing_arrive s i .wrRecv 2 1,
    rfl, rfl, rfl, rfl, rfl, rfl, rfl, rfl⟩

/-- Settles O33: the executor's run from the acknowledgment, on an accepted request, whose padded
data is whole blocks. -/
theorem writeTransferCompletes : Obligations.WriteTransferCompletes := by
  rintro i s tr hi hp hf hlen rfl hok hd hopen hdata hend
  have hdata' := executing_data_queued hlen hdata
  have hqueued : _ = (s.rxq ++ s.arrived 5).length := executing_queue_length hlen i .wrRecv 2
  have hend' : ((s.executing i .wrRecv).rxq ++ (s.executing i .wrRecv).arrived 2).length =
      (s.executing i .wrRecv).tr.totalBytes := by
    rw [executing_tr]
    omega
  obtain ⟨bytes, hbytes, hlength⟩ := unwireToStore_paddedData (request_wholeBlocks s i) ⟨hd, hok⟩
    (length_received hdata')
  have hexec := exec_writes hi hp hf hlen hok hd
  rw [xferRun_writes _ rfl rfl (hf.executing _) hopen hdata' hend' hbytes,
    Attempt.ok_outcome] at hexec
  exact ⟨(s.executing i .wrRecv).received, bytes, (s.executing i .wrRecv).written bytes,
    executing_received hlen i, hbytes, hlength, hexec, rfl,
    congrArg (· ++ _) (executing_tx hok hd .wrRecv), executing_trace hok hd .wrRecv _, rfl,
    executing_arrive s i .wrRecv 2 3, rfl, rfl, rfl, rfl, rfl, rfl, rfl, rfl, rfl⟩

/-- Settles O32: the executor's run from the acknowledgment; the store is read as whole words, so
the codec takes them. -/
theorem readTransferCompletes : Obligations.ReadTransferCompletes := by
  rintro i s tr hi hp hf hlen rfl hok hd hopen
  have hfetched : (s.executing i .rdFetch).fetched.length = (s.request i).totalBytes :=
    Store.length_readBytes ..
  have heven : (s.request i).totalBytes % 2 = 0 := Nat.mul_mod_right 2 _
  obtain ⟨wire, hwire, hlength⟩ := storeToWire_even (hfetched ▸ heven)
  have hexec := exec_reads hi hp hf hlen hok hd
  rw [xferRun_reads _ rfl (hf.executing _) hopen hwire, Attempt.ok_outcome] at hexec
  exact ⟨(s.executing i .rdFetch).fetched, wire, (s.executing i .rdFetch).drained,
    (s.executing i .rdFetch).finalBytes (s.executing i .rdFetch).drained,
    (s.executing i .rdFetch).readDone wire, rfl, hwire, hlength.trans hfetched,
    executing_queue hlen i .rdFetch 3, finalBytes_eq rfl _, hexec, rfl,
    congrArg (· ++ _ ++ _) (executing_tx hok hd .rdFetch), executing_trace hok hd .rdFetch _,
    executing_arrive s i .rdFetch 3 1, rfl, rfl, rfl, rfl, rfl, rfl, rfl, rfl, rfl, rfl⟩

end Sys2Proof.Machine

/-! ## The boot commands (44_bootstrap.md) -/

namespace Sys2Proof.Machine

/-! ### The HELP chunk (R273, R275) -/

/-- R273: two words have the same entry index for a link exactly when they agree on bits 6:0. -/
theorem helpIndex_inj {w v : Word12} {l m : Bool} :
    2 * (w &&& 0o177#12).toNat + l.toNat = 2 * (v &&& 0o177#12).toNat + m.toNat ↔
      w &&& 0o177#12 = v &&& 0o177#12 ∧ l = m := by
  rw [← BitVec.toNat_inj]
  cases l <;> cases m <;> simp <;> omega

/-- R273: the 8 bits that `help_byte` may depend on index a table of 256 entries. -/
theorem helpIndex_lt (w : Word12) (l : Bool) :
    2 * (w &&& 0o177#12).toNat + l.toNat < 256 := by
  have hword : (w &&& 0o177#12).toNat < 128 := by
    rw [toNat_and_lowMask w _ 7 rfl]
    exact Nat.mod_lt _ (by decide)
  have hlink := l.toNat_le
  omega

/-- Settles O21: a table without repeats tells its entries apart, and so their indices. -/
theorem helpByteInjective : Obligations.HelpByteInjective := by
  rintro cfg w v l m ⟨hlen, hnodup⟩
  have hw := hlen ▸ helpIndex_lt w l
  have hv := hlen ▸ helpIndex_lt v m
  rw [helpByte, helpByte, List.getD_eq_getElem _ _ hw, List.getD_eq_getElem _ _ hv,
    hnodup.getElem_inj_iff, helpIndex_inj]

/-- Settles O22, by induction on the table: the link of its first word looks at the head of the
rest, the later words at the rest alone. -/
theorem helpChunkLinksToNextWord : Obligations.HelpChunkLinksToNextWord := by
  intro cfg table
  induction table with
  | nil => exact ⟨rfl, nofun⟩
  | cons v rest ih =>
    obtain ⟨hlen, hbyte⟩ := ih
    refine ⟨congrArg (· + 1) hlen, fun i w hw => ?_⟩
    cases i with
    | zero =>
      obtain rfl : v = w := Option.some.inj hw
      cases rest <;> rfl
    | succ i => exact hbyte i w hw

/-! ### The patched words of block 0 (R276 to R278) -/

section
variable {cfg : Cfg} {ws : List Word12}

@[simp] theorem length_patchWords : (patchWords cfg ws).length = ws.length := by
  simp [patchWords]

/-- R277: the first patch stands at its offset, where the later ones leave it. -/
theorem patchWords_addr (hlen : cfg.patchAddrOff < ws.length)
    (hwc : cfg.patchWcOff ≠ cfg.patchAddrOff) (hcdf : cfg.patchCdfOff ≠ cfg.patchAddrOff) :
    (patchWords cfg ws)[cfg.patchAddrOff]? = some cfg.patchAddrVal := by
  rw [patchWords, List.getElem?_set_ne hcdf, List.getElem?_set_ne hwc,
    List.getElem?_set_self hlen]

/-- R277: the second patch stands at its offset, where the last one leaves it. -/
theorem patchWords_wc (hlen : cfg.patchWcOff < ws.length)
    (hcdf : cfg.patchCdfOff ≠ cfg.patchWcOff) :
    (patchWords cfg ws)[cfg.patchWcOff]? = some cfg.patchWcVal := by
  rw [patchWords, List.getElem?_set_ne hcdf, List.getElem?_set_self (by simpa using hlen)]

/-- R277: the last patch, the CDF of field 1, stands at its offset. -/
theorem patchWords_cdf (hlen : cfg.patchCdfOff < ws.length) :
    (patchWords cfg ws)[cfg.patchCdfOff]? = some 0o6211#12 :=
  List.getElem?_set_self (by simpa using hlen)

/-- R277: the patches leave every other word. -/
theorem patchWords_elsewhere {j : Nat} (haddr : j ≠ cfg.patchAddrOff) (hwc : j ≠ cfg.patchWcOff)
    (hcdf : j ≠ cfg.patchCdfOff) : (patchWords cfg ws)[j]? = ws[j]? := by
  rw [patchWords, List.getElem?_set_ne hcdf.symm, List.getElem?_set_ne hwc.symm,
    List.getElem?_set_ne haddr.symm]

end

/-- R276: a block holds at least as many words as the third chunk takes of it. -/
theorem length_bootPrefix {cfg : Cfg} {block : List Byte} (hprefix : cfg.bootPrefixLen ≤ 256)
    (hblock : block.length = 512) :
    ((storeDecodeWords block).take cfg.bootPrefixLen).length = cfg.bootPrefixLen := by
  rw [List.length_take, length_storeDecodeWords, hblock]
  exact Nat.min_eq_left hprefix

/-- Settles O23: chunk 3 is read back as the patched words. -/
theorem bootPrefixIsPatchedInPlace : Obligations.BootPrefixIsPatchedInPlace := by
  rintro cfg block ⟨-, ⟨-, hprefix⟩, ⟨haddr, hwc, hcdf⟩, ⟨haddr_wc, haddr_cdf, hwc_cdf⟩, -⟩ hblock
  have hlen := length_bootPrefix hprefix hblock
  rw [bootPrefixBytes, decodeWireWords_encodeControlWords, length_encodeControlWords,
    length_patchWords, hlen]
  refine ⟨rfl, rfl, patchWords_addr (hlen.symm ▸ haddr) haddr_wc.symm haddr_cdf.symm,
    patchWords_wc (hlen.symm ▸ hwc) hwc_cdf.symm, patchWords_cdf (hlen.symm ▸ hcdf),
    fun j hj hja hjw hjc => ?_⟩
  rw [patchWords_elsewhere hja hjw hjc, List.getElem?_take_of_lt hj]

/-! ### The runs of the two commands -/

section
variable {s : State}

/-- A primitive that is done leaves the rest of the procedure to its result and its state. -/
theorem Attempt.andThen_eq {α β : Type} {x : Attempt α} {f : α → State → Attempt β} {a : α}
    {y : Attempt β} (hx : x = .ok a s) (hf : f a s = y) : x.andThen f = y := by
  rw [hx, Attempt.ok_andThen, hf]

/-- R81: a read of an open store, whose bytes have the name `bytes`. A run of a boot command names
the bytes it reads, so that no later step unfolds them. -/
theorem storeRead_of_readBytes {u : UnitNo} {off n : Nat} {bytes : List Byte}
    (hopen : s.isOpen.get u = true) (hf : s.failNow = none)
    (hbytes : (s.stores.get u).readBytes off n s.draws = bytes) :
    storeRead u off n s = .ok bytes
      ((s.advance.withDraws (s.draws + n)).record (.storeRead u off n bytes)) := by
  rw [storeRead_ok _ _ hopen hf, hbytes]

/-- Whether a primitive fails depends on the environment's moves alone. -/
theorem NoFailures.failNow_of_env_eq {t : State} (hf : NoFailures t) (henv : s.env = t.env) :
    s.failNow = none := by
  rw [State.failNow, henv]
  exact headFail_of_noFailures hf

/-- The bytes queued after three moves of the environment. -/
theorem rxq_advance_thrice (s : State) :
    s.advance.advance.advance.rxq = s.rxq ++ s.arrived 3 := by
  simp [arrived_succ]

/-- The bytes queued after four moves of the environment. -/
theorem rxq_advance_four_times (s : State) :
    s.advance.advance.advance.advance.rxq = s.rxq ++ s.arrived 4 := by
  simp [arrived_succ]

/-- `s` after the three primitives of `BOOTSECT`, which read `page` and sent it as `wire` (R270,
R271). -/
def State.bootsectDone (s : State) (page wire : List Byte) : State :=
  { s.advance.advance.advance with
    phase := .idle
    buf := page
    draws := s.draws + Config.bootSectorBytes
    tx := s.tx ++ wire ++ [Config.bootTrailer]
    trace := s.trace ++ [.storeRead .u0 0 Config.bootSectorBytes page, .send wire,
      .send [Config.bootTrailer]] }

/-- R270, R271: with unit 0 open and no primitive failing, `BOOTSECT` runs to its end. -/
theorem bootSectorSend_ok {page wire : List Byte} (hopen : s.isOpen.get .u0 = true)
    (hf : NoFailures s)
    (hpage : (s.stores.get .u0).readBytes 0 Config.bootSectorBytes s.draws = page)
    (hwire : storeToWire page = some wire) :
    bootSectorSend s = .ok () (s.bootsectDone page wire) := by
  have hf1 := hf.advance
  have hf2 := hf1.advance
  rw [bootSectorSend, storeRead_of_readBytes hopen (headFail_of_noFailures hf) hpage,
    Attempt.ok_andThen, hwire]
  refine Attempt.andThen_eq (send_ok _ (hf1.failNow_of_env_eq rfl)) ?_
  refine Attempt.andThen_eq (send_ok _ (hf2.failNow_of_env_eq rfl)) (congrArg _ ?_)
  simp [State.bootsectDone, State.record, State.withTx, State.withBuf, State.withDraws,
    State.advance, State.goIdle, State.withPhase]

/-- `s` after the four primitives of `HELPBOOT`, which read `block` (R272). -/
def State.helpbootDone (s : State) (block : List Byte) : State :=
  { s.advance.advance.advance.advance with
    phase := .idle
    buf := bootPrefixBytes s.cfg block
    draws := s.draws + Config.blockBytes
    tx := s.tx ++ helpChunk s.cfg s.cfg.helpTable ++ encodeControlWords s.cfg.stage2Table ++
      bootPrefixBytes s.cfg block
    trace := s.trace ++ [.send (helpChunk s.cfg s.cfg.helpTable),
      .send (encodeControlWords s.cfg.stage2Table), .storeRead .u0 0 Config.blockBytes block,
      .send (bootPrefixBytes s.cfg block)] }

/-- R274: a word of the HELP table has a bit of the forbidden mask. -/
theorem helpForbidden_iff {cfg : Cfg} : helpForbidden cfg = true ↔
    ∃ w ∈ cfg.helpTable, w &&& cfg.helpForbiddenMask ≠ 0#12 := by
  simp [helpForbidden]

/-- R272, R279: with no forbidden HELP word, unit 0 open and no primitive failing, `HELPBOOT` runs
to its end. -/
theorem bootstrapInject_ok {block : List Byte} (hallowed : ¬ helpForbidden s.cfg = true)
    (hopen : s.isOpen.get .u0 = true) (hf : NoFailures s)
    (hblock : (s.stores.get .u0).readBytes 0 Config.blockBytes s.draws = block) :
    bootstrapInject s = .ok () (s.helpbootDone block) := by
  have hf1 := hf.advance
  have hf2 := hf1.advance
  have hf3 := hf2.advance
  rw [bootstrapInject, if_neg hallowed]
  refine Attempt.andThen_eq (send_ok _ (headFail_of_noFailures hf)) ?_
  refine Attempt.andThen_eq (send_ok _ (hf1.failNow_of_env_eq rfl)) ?_
  refine Attempt.andThen_eq (storeRead_of_readBytes (by simpa using hopen)
    (hf2.failNow_of_env_eq rfl) (by simpa using hblock)) ?_
  refine Attempt.andThen_eq (send_ok _ (hf3.failNow_of_env_eq rfl)) (congrArg _ ?_)
  simp [State.helpbootDone, State.record, State.withTx, State.withBuf, State.withDraws,
    State.advance, State.goIdle, State.withPhase]

end

/-! ### The settlements -/

/-- Settles O18: the page read is 256 bytes, so the codec takes it. -/
theorem bootsectCompletes : Obligations.BootsectCompletes := by
  intro s hopen hf
  have hpage : ((s.stores.get .u0).readBytes 0 256 s.draws).length = 256 :=
    Store.length_readBytes ..
  obtain ⟨wire, hwire, hlength⟩ := storeToWire_even (by rw [hpage])
  exact ⟨_, wire, (s.withPhase .bootsect).bootsectDone _ wire, rfl, hwire, hlength.trans hpage,
    congrArg Attempt.outcome (bootSectorSend_ok (s := s.withPhase .bootsect) hopen hf rfl hwire),
    rfl, rfl, rfl, rfl, rfl, rxq_advance_thrice s, rfl, rfl, rfl, rfl, rfl, rfl, rfl, rfl⟩

/-- Settles O19: `bootstrapInject` runs to its end, with the chunks as the statement has them. -/
theorem helpbootCompletes : Obligations.HelpbootCompletes := by
  intro s hclear hopen hf
  have hallowed : ¬ helpForbidden s.cfg = true := by simpa [helpForbidden_iff] using hclear
  exact ⟨_, _, _, _, (s.withPhase .help).helpbootDone _, rfl, rfl, rfl, rfl,
    congrArg Attempt.outcome (bootstrapInject_ok (s := s.withPhase .help) hallowed hopen hf rfl),
    rfl, rfl, rfl, rxq_advance_four_times s, rfl, rfl, rfl, rfl, rfl, rfl, rfl, rfl, rfl⟩

/-- Settles O20: the injector looks at the HELP table before its first primitive. -/
theorem forbiddenHelpWordAborts : Obligations.ForbiddenHelpWordAborts := by
  intro s hforbidden
  have habort : bootstrapInject (s.withPhase .help) = .ok () (s.withPhase .help).goIdle :=
    if_pos (helpForbidden_iff.mpr hforbidden)
  exact congrArg Attempt.outcome habort

end Sys2Proof.Machine

/-! ## A failing primitive (60_exceptions.md R310, R311)

One equation for each primitive when the environment makes it fail, beside the equations
`recv_ok`, `send_ok` and the others of one that succeeds. -/

namespace Sys2Proof.Machine

section
variable {s : State} {k : Nat}

theorem recv_fails (n : Nat) (hf : s.failNow = some k) : recv n s =
    .stop (.next (raiseFatal .recv none (s.advance.withRxq (s.advance.rxq.drop k)))) := by
  rw [recv, hf]

theorem send_fails (bs : List Byte) (hf : s.failNow = some k) : send bs s =
    .stop (.next (raiseFatal .send none (s.advance.withTx (s.tx ++ bs.take k)))) := by
  rw [send, hf]; rfl

theorem drain_fails (hf : s.failNow = some k) : drain s =
    .stop (.next (raiseFatal .drain none (s.advance.withRxq (s.advance.rxq.drop k)))) := by
  rw [drain, hf]

theorem storeRead_fails {u : UnitNo} (off n : Nat) (ho : s.isOpen.get u = true)
    (hf : s.failNow = some k) :
    storeRead u off n s = .stop (.next (raiseFatal .storeRead (some u) s.advance)) := by
  rw [storeRead, if_pos ho, hf]

theorem storeWrite_fails {u : UnitNo} (off : Nat) (bs : List Byte) (ho : s.isOpen.get u = true)
    (hf : s.failNow = some k) : storeWrite u off bs s =
      .stop (.next (raiseFatal .storeWrite (some u) (s.advance.writeStore u off (bs.take k)))) := by
  rw [storeWrite, if_pos ho, hf]

theorem storeFlush_fails {u : UnitNo} (ho : s.isOpen.get u = true) (hf : s.failNow = some k) :
    storeFlush u s = .stop (.next (raiseFatal .storeFlush (some u) s.advance)) := by
  rw [storeFlush, if_pos ho, hf]

theorem storeClose_fails {u : UnitNo} (ho : s.isOpen.get u = true) (hf : s.failNow = some k) :
    storeClose u s = .stop (.next (raiseFatal .storeClose (some u) s.advance)) := by
  rw [storeClose, if_pos ho, hf]

end

/-- Settles O47: the equation of each failing primitive, its state written out. -/
theorem failingPrimitives : Obligations.FailingPrimitives := fun _ _ hf =>
  ⟨fun n => recv_fails n hf, fun bs => send_fails bs hf, drain_fails hf, fun _ ho =>
    ⟨fun off n => storeRead_fails off n ho hf, fun off bs => storeWrite_fails off bs ho hf,
      storeFlush_fails ho hf, storeClose_fails ho hf⟩⟩

/-! ## A rejected transfer (60_exceptions.md R302) -/

/-- Settles O31: after the first acknowledgment a rejected transfer is in `IDLE`, where its run has
ended. -/
theorem rejectedTransferCompletes : Obligations.RejectedTransferCompletes := by
  intro i s hi hp hf hlen hrejected
  have hexec := exec_acknowledges hi hp hf hlen
  rw [afterAck_rejected (s := s.acknowledged i) hrejected, xferRun_idle (goIdle_phase _),
    Attempt.ok_outcome] at hexec
  exact ⟨(s.acknowledged i).goIdle, hexec, rfl, rfl, rfl, rfl, rfl, rfl, rfl, rfl, rfl, rfl, rfl,
    rfl, rfl, rfl⟩

end Sys2Proof.Machine

/-! ## A fault in a shutdown (60_exceptions.md R312)

The orderly close takes the units in order, so wherever it stops the units before one of them are
closed and the others are as they were. `ClosedBelow n` says so of a state it passes through, and a
fault is raised in such a state. -/

namespace Sys2Proof.Machine

/-- The event is the flush or the close of a unit up to number `n`. -/
def ClosesUpTo (n : Nat) (e : Event) : Prop :=
  ∃ v : UnitNo, v.index ≤ n ∧ (e = .storeFlush v ∨ e = .storeClose v)

/-- From `s` to `t` the units before number `n` have been closed, and the others not: no later unit
than `n` has been flushed. Nothing was sent or written. -/
structure ClosedBelow (n : Nat) (s t : State) : Prop where
  closed : ∀ v : UnitNo, v.index < n → t.isOpen.get v = false
  kept : ∀ v : UnitNo, n ≤ v.index → t.isOpen.get v = s.isOpen.get v
  stores : t.stores = s.stores
  tx : t.tx = s.tx
  events : ∃ events, t.trace = s.trace ++ events ∧ ∀ e ∈ events, ClosesUpTo n e

/-- A shutdown begun in `s` ends in `t` by the fault of a flush or close of an open unit. -/
def ShutdownFault (s t : State) : Prop :=
  ∃ (p : Primitive) (u : UnitNo) (r : State), (p = .storeFlush ∨ p = .storeClose) ∧
    s.isOpen.get u = true ∧ ClosedBelow u.index s r ∧ t = raiseFatal p (some u) r

/-- What `ShutdownFaultLeavesLaterUnitsOpen` says of a shutdown from `s` that ends in `FATAL` at
`t`. -/
def LeavesLaterUnitsOpen (s t : State) (info : FatalInfo) : Prop :=
  ∃ u, info.unit = some u ∧
    (info.primitive = .storeFlush ∨ info.primitive = .storeClose) ∧
    s.isOpen.get u = true ∧
    (∀ v, v.index < u.index → t.isOpen.get v = false) ∧
    (∀ v, u.index ≤ v.index → t.isOpen.get v = s.isOpen.get v) ∧
    t.stores = s.stores ∧ t.tx = s.tx ∧
    ∃ events, t.trace = s.trace ++ events ++ [.fatal info] ∧
      (∀ v, u.index < v.index → Event.storeFlush v ∉ events) ∧
      Event.powerOff ∉ events ∧ ∀ reason, Event.halt reason ∉ events

theorem index_injective : Function.Injective UnitNo.index :=
  Function.LeftInverse.injective (g := unitOfIndex) fun u => by cases u <;> rfl

/-- An entry replaced by itself. -/
theorem PerUnit.set_eq_self {α : Type} {p : PerUnit α} {u : UnitNo} {a : α} (h : p.get u = a) :
    p.set u a = p := by
  subst h; cases u <;> rfl

section
variable {s t : State} {n : Nat} {u : UnitNo}

theorem ClosesUpTo.mono {m : Nat} {e : Event} (h : ClosesUpTo n e) (hm : n ≤ m) :
    ClosesUpTo m e := by
  obtain ⟨v, hv, he⟩ := h
  exact ⟨v, hv.trans hm, he⟩

theorem ClosedBelow.refl (s : State) : ClosedBelow 0 s s :=
  ⟨nofun, fun _ _ => rfl, rfl, rfl, [], by simp, nofun⟩

/-- The environment's move touches nothing that `ClosedBelow` speaks of. -/
theorem ClosedBelow.advance (h : ClosedBelow n s t) : ClosedBelow n s t.advance :=
  ⟨h.closed, h.kept, h.stores, h.tx, h.events⟩

/-- A flush or close is recorded, of a unit whose turn has come. -/
theorem ClosedBelow.record {e : Event} (h : ClosedBelow n s t) (he : ClosesUpTo n e) :
    ClosedBelow n s (t.record e) := by
  obtain ⟨events, htrace, hevents⟩ := h.events
  refine ⟨h.closed, h.kept, h.stores, h.tx, events ++ [e], ?_, ?_⟩
  · rw [record_trace, htrace, List.append_assoc]
  · rw [List.forall_mem_append]
    exact ⟨hevents, List.forall_mem_singleton.2 he⟩

/-- The turn of unit `u` is over when it is closed and the others are as they were. -/
theorem ClosedBelow.next (h : ClosedBelow u.index s t) {o : PerUnit Bool}
    (ho : o = t.isOpen.set u false) : ClosedBelow (u.index + 1) s (t.withOpen o) where
  closed v hv := by
    rw [withOpen_isOpen, ho, PerUnit.get_set]
    split
    · rfl
    next hne =>
      exact h.closed v (lt_of_le_of_ne (Nat.le_of_lt_succ hv) (index_injective.ne hne))
  kept v hv := by
    have hne : v ≠ u := by rintro rfl; omega
    rw [withOpen_isOpen, ho, PerUnit.get_set_other _ hne, h.kept v (Nat.le_of_succ_le hv)]
  stores := h.stores
  tx := h.tx
  events := by
    obtain ⟨events, htrace, hevents⟩ := h.events
    exact ⟨events, htrace, fun e he => (hevents e he).mono (Nat.le_succ _)⟩

theorem nextIn_shutdownFault {p : Primitive} (hp : p = .storeFlush ∨ p = .storeClose)
    (ho : s.isOpen.get u = true) (h : ClosedBelow u.index s t) :
    NextIn (ShutdownFault s) (.next (raiseFatal p (some u) t)) :=
  nextIn_next ⟨p, u, t, hp, ho, h, rfl⟩

/-- One unit's turn: it is closed, or the shutdown stops at it (R184, R312). -/
theorem closeUnit_inTurn (u : UnitNo) (h : ClosedBelow u.index s t) :
    (closeUnit u t).Holds (fun _ r => ClosedBelow (u.index + 1) s r)
      (NextIn (ShutdownFault s)) := by
  unfold closeUnit
  split
  next ho =>
    have hopen : s.isOpen.get u = true := (h.kept u le_rfl).symm.trans ho
    have hflushed : ClosedBelow u.index s (t.advance.record (.storeFlush u)) :=
      h.advance.record ⟨u, le_rfl, .inl rfl⟩
    rw [Attempt.holds_andThen]
    refine storeFlush_rule (fun _ => nextIn_fault _)
      (nextIn_shutdownFault (.inl rfl) hopen h.advance) ?_
    refine storeClose_rule (fun _ => nextIn_fault _)
      (nextIn_shutdownFault (.inr rfl) hopen hflushed.advance) ?_
    exact (hflushed.advance.next rfl).record ⟨u, Nat.le_succ _, .inr rfl⟩
  next ho =>
    exact h.next (PerUnit.set_eq_self (by simpa using ho)).symm

/-- The four turns in order (decision D27). -/
theorem closeAll_inTurn (s : State) :
    (closeAll s).Holds (fun _ r => ClosedBelow 4 s r) (NextIn (ShutdownFault s)) := by
  simp only [closeAll, Attempt.holds_andThen]
  refine (closeUnit_inTurn .u0 (.refl s)).mono (fun _ t0 h0 => ?_) fun _ => id
  refine (closeUnit_inTurn .u1 h0).mono (fun _ t1 h1 => ?_) fun _ => id
  refine (closeUnit_inTurn .u2 h1).mono (fun _ t2 h2 => ?_) fun _ => id
  exact closeUnit_inTurn .u3 h2

/-- A shutdown halts, or ends in a fault of the orderly close. -/
theorem closeAll_haltsOrFaults {r : HaltReason} {f : State → State}
    (hf : ∀ t, (f t).phase = .halted r) :
    NextIn (fun t => t.phase = .halted r ∨ ShutdownFault s t)
      ((closeAll s).andThen fun _ t => .ok () (f t)).outcome := by
  refine Attempt.holds_outcome ((Attempt.holds_andThen ..).2 ?_)
  exact (closeAll_inTurn s).mono (fun _ t _ => nextIn_next (.inl (hf t)))
    fun _ ho t ht => .inr (ho t ht)

/-- The fault's state, read off: R312. -/
theorem ShutdownFault.leavesLaterUnitsOpen {info : FatalInfo} (h : ShutdownFault s t)
    (ht : t.phase = .fatal info) : LeavesLaterUnitsOpen s t info := by
  obtain ⟨p, u, r, hp, ho, hr, rfl⟩ := h
  obtain rfl : ⟨p, some u⟩ = info := Phase.fatal.inj ht
  obtain ⟨events, htrace, hevents⟩ := hr.events
  refine ⟨u, rfl, hp, ho, hr.closed, hr.kept, hr.stores, hr.tx, events,
    by rw [raiseFatal_trace, htrace], fun v hv hm => ?_, fun hm => ?_, fun reason hm => ?_⟩
  · obtain ⟨w, hw, he | he⟩ := hevents _ hm
    · cases he; omega
    · cases he
  · obtain ⟨w, -, he | he⟩ := hevents _ hm <;> cases he
  · obtain ⟨w, -, he | he⟩ := hevents _ hm <;> cases he

/-- A shutdown that ends in `FATAL` did not halt. -/
theorem leavesLaterUnitsOpen_of_fatal {info : FatalInfo} {r : HaltReason}
    {o : Host.Outcome State Fault Refusal}
    (h : NextIn (fun t => t.phase = .halted r ∨ ShutdownFault s t) o) (ho : o = .next t)
    (ht : t.phase = .fatal info) : LeavesLaterUnitsOpen s t info := by
  rcases h t ho with hh | hfault
  · rw [ht] at hh; cases hh
  · exact hfault.leavesLaterUnitsOpen ht

end

/-- Settles O16: `QUIT` and the cancel shutdown are each the orderly close and a halt. -/
theorem shutdownFaultLeavesLaterUnitsOpen : Obligations.ShutdownFaultLeavesLaterUnitsOpen := by
  rintro s t info (hquit | ⟨hp, hc, hcancel⟩) ht
  · exact leavesLaterUnitsOpen_of_fatal (s := s.withPhase .quit)
      (closeAll_haltsOrFaults fun _ => rfl) hquit ht
  · rw [step_idle_stop hp (fetchCommand_cancel hc)] at hcancel
    exact leavesLaterUnitsOpen_of_fatal (s := s.advance)
      (closeAll_haltsOrFaults fun _ => rfl) hcancel ht

end Sys2Proof.Machine

/-! ## The cancel request does not reach a command (60_exceptions.md R321)

Setting the request before a procedure or after it comes to the same, for each primitive and so
along every procedure. That no procedure sets or clears it is a relation that all of them keep. -/

namespace Sys2Proof.Machine

/-! ### With the request set -/

/-- The state with the cancel request set (R45). -/
def State.cancelled (s : State) : State := { s with cancel := true }

/-- The outcome with the cancel request set in its next state, if it has one. -/
def outcomeCancelled : Host.Outcome State Fault Refusal → Host.Outcome State Fault Refusal
  | .next t => .next t.cancelled
  | .fault f => .fault f
  | .refused r => .refused r

/-- The attempt with the cancel request set where it is done or stops. -/
def Attempt.cancelled {α : Type} : Attempt α → Attempt α
  | .ok a t => .ok a t.cancelled
  | .stop o => .stop (outcomeCancelled o)

section
variable {α β : Type}

theorem Attempt.cancelled_outcome (x : Attempt α) :
    x.cancelled.outcome = outcomeCancelled x.outcome := by cases x <;> rfl

/-- One attempt after another, each of which takes the request along. -/
theorem Attempt.cancelled_andThen {x x' : Attempt β} {f : β → State → Attempt α}
    (hx : x' = x.cancelled) (hf : ∀ a t, f a t.cancelled = (f a t).cancelled) :
    x'.andThen f = (x.andThen f).cancelled := by
  subst hx
  cases x with
  | ok a t => exact hf a t
  | stop o => rfl

/-- A primitive and then an update of the state. -/
theorem Attempt.cancelled_andThen_ok {x x' : Attempt β} {f : β → State → State}
    (hx : x' = x.cancelled) (hf : ∀ a t, f a t.cancelled = (f a t).cancelled) :
    (x'.andThen fun a t => .ok () (f a t)) = (x.andThen fun a t => .ok () (f a t)).cancelled :=
  Attempt.cancelled_andThen hx fun a t => congrArg (Attempt.ok ()) (hf a t)

end

section
variable (s : State)

theorem cancelled_phase : s.cancelled.phase = s.phase := rfl
theorem cancelled_cfg : s.cancelled.cfg = s.cfg := rfl
theorem cancelled_isOpen : s.cancelled.isOpen = s.isOpen := rfl
theorem cancelled_tr : s.cancelled.tr = s.tr := rfl
theorem cancelled_buf : s.cancelled.buf = s.buf := rfl
theorem cancelled_failNow : s.cancelled.failNow = s.failNow := rfl
theorem cancelled_advance_rxq : s.cancelled.advance.rxq = s.advance.rxq := rfl

/-! ### One equation for each primitive -/

theorem recv_cancelled (n : Nat) : recv n s.cancelled = (recv n s).cancelled := by
  unfold recv
  rw [cancelled_failNow, cancelled_advance_rxq]
  cases s.failNow with
  | some k => rfl
  | none => dsimp only; split <;> rfl

theorem send_cancelled (bs : List Byte) : send bs s.cancelled = (send bs s).cancelled := by
  unfold send; rw [cancelled_failNow]; cases s.failNow <;> rfl

theorem drain_cancelled : drain s.cancelled = (drain s).cancelled := by
  unfold drain; rw [cancelled_failNow]; cases s.failNow <;> rfl

theorem storeRead_cancelled (u : UnitNo) (off n : Nat) :
    storeRead u off n s.cancelled = (storeRead u off n s).cancelled := by
  unfold storeRead
  rw [cancelled_failNow, cancelled_isOpen]
  split
  · cases s.failNow <;> rfl
  · rfl

theorem storeWrite_cancelled (u : UnitNo) (off : Nat) (bs : List Byte) :
    storeWrite u off bs s.cancelled = (storeWrite u off bs s).cancelled := by
  unfold storeWrite
  rw [cancelled_failNow, cancelled_isOpen]
  split
  · cases s.failNow <;> rfl
  · rfl

theorem storeFlush_cancelled (u : UnitNo) :
    storeFlush u s.cancelled = (storeFlush u s).cancelled := by
  unfold storeFlush
  rw [cancelled_failNow, cancelled_isOpen]
  split
  · cases s.failNow <;> rfl
  · rfl

theorem storeClose_cancelled (u : UnitNo) :
    storeClose u s.cancelled = (storeClose u s).cancelled := by
  unfold storeClose
  rw [cancelled_failNow, cancelled_isOpen]
  split
  · cases s.failNow <;> rfl
  · rfl

/-! ### `QUIT` and the boot commands -/

theorem closeUnit_cancelled (u : UnitNo) :
    closeUnit u s.cancelled = (closeUnit u s).cancelled := by
  unfold closeUnit
  rw [cancelled_isOpen]
  split
  · exact Attempt.cancelled_andThen (storeFlush_cancelled s u) fun _ t => storeClose_cancelled t u
  · rfl

theorem closeAll_cancelled : closeAll s.cancelled = (closeAll s).cancelled :=
  Attempt.cancelled_andThen (closeUnit_cancelled s .u0) fun _ t =>
    Attempt.cancelled_andThen (closeUnit_cancelled t .u1) fun _ t =>
      Attempt.cancelled_andThen (closeUnit_cancelled t .u2) fun _ t => closeUnit_cancelled t .u3

theorem powerOffIf_cancelled : powerOffIf s.cancelled = (powerOffIf s).cancelled := by
  unfold powerOffIf; rw [cancelled_cfg]; split <;> rfl

theorem execQuit_cancelled : execQuit s.cancelled = outcomeCancelled (execQuit s) := by
  rw [execQuit, execQuit, ← Attempt.cancelled_outcome]
  refine congrArg Attempt.outcome ?_
  exact Attempt.cancelled_andThen_ok (closeAll_cancelled (s.withPhase .quit)) fun _ t =>
    congrArg (halt .quit) (powerOffIf_cancelled t)

theorem bootSectorSend_cancelled :
    bootSectorSend s.cancelled = (bootSectorSend s).cancelled := by
  refine Attempt.cancelled_andThen (storeRead_cancelled s .u0 0 _) fun bs t => ?_
  cases storeToWire bs with
  | none => rfl
  | some wire =>
    exact Attempt.cancelled_andThen (send_cancelled (t.withBuf bs) wire) fun _ t =>
      Attempt.cancelled_andThen_ok (send_cancelled t _) fun _ _ => rfl

theorem execBootsect_cancelled : execBootsect s.cancelled = outcomeCancelled (execBootsect s) := by
  rw [execBootsect, execBootsect, ← Attempt.cancelled_outcome]
  exact congrArg Attempt.outcome (bootSectorSend_cancelled (s.withPhase .bootsect))

theorem bootstrapInject_cancelled :
    bootstrapInject s.cancelled = (bootstrapInject s).cancelled := by
  unfold bootstrapInject
  rw [cancelled_cfg]
  split
  · rfl
  · exact Attempt.cancelled_andThen (send_cancelled s _) fun _ t =>
      Attempt.cancelled_andThen (send_cancelled t _) fun _ t =>
        Attempt.cancelled_andThen (storeRead_cancelled t .u0 0 _) fun block t =>
          Attempt.cancelled_andThen_ok
            (send_cancelled (t.withBuf (bootPrefixBytes t.cfg block)) _) fun _ _ => rfl

theorem execHelpboot_cancelled : execHelpboot s.cancelled = outcomeCancelled (execHelpboot s) := by
  rw [execHelpboot, execHelpboot, ← Attempt.cancelled_outcome]
  exact congrArg Attempt.outcome (bootstrapInject_cancelled (s.withPhase .help))

/-! ### Transfers -/

theorem afterAck_cancelled : afterAck s.cancelled = (afterAck s).cancelled := by
  cases hok : s.tr.ok with
  | false => rw [afterAck_rejected hok, afterAck_rejected (s := s.cancelled) hok]; rfl
  | true =>
    cases hd : s.tr.dir with
    | read => rw [afterAck_read hok hd, afterAck_read (s := s.cancelled) hok hd]; rfl
    | write => rw [afterAck_write hok hd, afterAck_write (s := s.cancelled) hok hd]; rfl

theorem afterWrAck_cancelled : afterWrAck s.cancelled = (afterWrAck s).cancelled := by
  cases hd : s.desync with
  | true => rw [afterWrAck_desync hd, afterWrAck_desync (s := s.cancelled) hd]; rfl
  | false => rw [afterWrAck_commit hd, afterWrAck_commit (s := s.cancelled) hd]; rfl

theorem padBuffer_cancelled : padBuffer s.cancelled = (padBuffer s).cancelled := by
  unfold padBuffer; rw [cancelled_tr]; split <;> rfl

theorem rdSend_cancelled : rdSend s.cancelled = (rdSend s).cancelled := by
  unfold rdSend
  rw [cancelled_buf]
  cases storeToWire s.buf with
  | none => rfl
  | some wire => exact Attempt.cancelled_andThen_ok (send_cancelled s wire) fun _ _ => rfl

theorem wrCommit_cancelled : wrCommit s.cancelled = (wrCommit s).cancelled := by
  unfold wrCommit
  rw [cancelled_buf]
  cases unwireToStore s.buf with
  | none => rfl
  | some bytes =>
    exact Attempt.cancelled_andThen_ok (storeWrite_cancelled s _ _ bytes) fun _ _ => rfl

theorem xferStep_cancelled (b : Byte) (p : XferPhase) :
    xferStep b p s.cancelled = (xferStep b p s).cancelled := by
  cases p with
  | params => exact Attempt.cancelled_andThen_ok (recv_cancelled s _) fun _ _ => rfl
  | setup => exact Attempt.cancelled_andThen_ok (send_cancelled s _) fun _ _ => rfl
  | ack => exact Attempt.cancelled_andThen_ok (send_cancelled s _) fun _ => afterAck_cancelled
  | rdFetch => exact Attempt.cancelled_andThen_ok (storeRead_cancelled s _ _ _) fun _ _ => rfl
  | rdSend => exact rdSend_cancelled s
  | rdDrain => exact Attempt.cancelled_andThen_ok (drain_cancelled s) fun _ _ => rfl
  | rdFinal => exact Attempt.cancelled_andThen_ok (send_cancelled s _) fun _ _ => rfl
  | wrRecv => exact Attempt.cancelled_andThen_ok (recv_cancelled s _) fun _ _ => rfl
  | wrDrain => exact Attempt.cancelled_andThen_ok (drain_cancelled s) fun _ _ => rfl
  | wrPad =>
    exact congrArg (fun t => Attempt.ok () (t.toXfer .wrAck)) (padBuffer_cancelled s)
  | wrAck => exact Attempt.cancelled_andThen_ok (send_cancelled s _) fun _ => afterWrAck_cancelled
  | wrCommit => exact wrCommit_cancelled s
  | wrFlush => exact Attempt.cancelled_andThen_ok (storeFlush_cancelled s _) fun _ _ => rfl

theorem xferRun_cancelled (b : Byte) (n : Nat) :
    xferRun b n s.cancelled = (xferRun b n s).cancelled := by
  induction n generalizing s with
  | zero => rfl
  | succ n ih =>
    rw [xferRun, xferRun, cancelled_phase]
    split
    next p _ => exact Attempt.cancelled_andThen (xferStep_cancelled s b p) fun _ t => ih t
    next => rfl

theorem enterXfer_cancelled : enterXfer s.cancelled = (enterXfer s).cancelled := by
  unfold enterXfer
  rw [cancelled_phase]
  split <;> rfl

/-- With the request set a command does what it does without, and the request is still set. -/
theorem exec_cancelled (i : Instr) : exec i s.cancelled = outcomeCancelled (exec i s) := by
  cases ht : i.isTransfer with
  | true =>
    rw [exec_transfer ht, exec_transfer ht, transfer, transfer, enterXfer_cancelled,
      xferRun_cancelled, Attempt.cancelled_outcome]
  | false =>
    cases i with
    | helpboot => exact execHelpboot_cancelled s
    | bootsect => exact execBootsect_cancelled s
    | quit => exact execQuit_cancelled s
    | ignored b => rfl
    | _ => cases ht

end

/-! ### Without a move that sets it -/

/-- `t` has only moves left that `s` had, and the cancel request of `s`, unless one of these moves
sets it. -/
structure KeepsCancel (s t : State) : Prop where
  env : t.env ⊆ s.env
  cancel : (∀ m ∈ s.env, m.cancel = false) → t.cancel = s.cancel

section
variable {s t : State}

theorem KeepsCancel.of_updates (env : t.env = s.env := by simp)
    (cancel : t.cancel = s.cancel := by simp) : KeepsCancel s t :=
  ⟨env_subset_of_eq env, fun _ => cancel⟩

/-- One move of the environment. -/
theorem KeepsCancel.of_move (env : t.env = s.env.tail := by simp)
    (cancel : t.cancel = (s.cancel || headCancel s.env) := by simp) : KeepsCancel s t := by
  refine ⟨env ▸ List.tail_subset _, fun h => ?_⟩
  have hhead : headCancel s.env = false := by
    cases hs : s.env with
    | nil => rfl
    | cons m ms => exact h m (by simp [hs])
  rw [cancel, hhead, Bool.or_false]

theorem keepsCancel_composes : Composes KeepsCancel KeepsCancel :=
  .of_preorder (fun _ => .of_updates) fun h h' =>
    ⟨List.Subset.trans h'.env h.env, fun hs =>
      (h'.cancel fun m hm => hs m (h.env hm)).trans (h.cancel hs)⟩

theorem keepsCancel_transfer : AdmitsTransfer KeepsCancel KeepsCancel where
  toComposes := keepsCancel_composes
  recv _ _ := recv_rule (fun _ => nextIn_next .of_move) (nextIn_next .of_move)
    fun _ => KeepsCancel.of_move
  send _ _ := send_rule (fun _ => nextIn_next .of_move) KeepsCancel.of_move
  drain _ := drain_rule (fun _ => nextIn_next .of_move) KeepsCancel.of_move
  read _ _ _ _ := storeRead_rule (fun _ => nextIn_fault _) (nextIn_next .of_move)
    KeepsCancel.of_move
  write _ _ _ _ := storeWrite_rule (fun _ => nextIn_fault _) (fun _ => nextIn_next .of_move)
    KeepsCancel.of_move
  flush _ _ := storeFlush_rule (fun _ => nextIn_fault _) (nextIn_next .of_move)
    KeepsCancel.of_move
  registers _ _ _ _ _ _ := .of_updates

theorem keepsCancel_boot : AdmitsBoot KeepsCancel KeepsCancel where
  toComposes := keepsCancel_composes
  send := keepsCancel_transfer.send
  read := keepsCancel_transfer.read
  phase _ _ := .of_updates
  buf _ _ := .of_updates

theorem keepsCancel_shutdown : AdmitsShutdown KeepsCancel KeepsCancel where
  toComposes := keepsCancel_composes
  flush := keepsCancel_transfer.flush
  close _ _ := storeClose_rule (fun _ => nextIn_fault _) (nextIn_next .of_move)
    KeepsCancel.of_move
  phase _ _ := .of_updates
  powerOff _ := .of_updates
  halt _ _ := .of_updates

/-- No command sets or clears the cancel request. -/
theorem exec_keepsCancel (i : Instr) (s : State) : NextIn (KeepsCancel s) (exec i s) :=
  exec_within (fun _ => keepsCancel_transfer) (fun _ => keepsCancel_boot)
    (fun _ => keepsCancel_shutdown) (fun _ _ _ => .of_updates) s

end

/-- Settles O48: `exec_cancelled` compares the two runs, and `exec_keepsCancel` follows the
request. -/
theorem cancelDoesNotReachACommand : Obligations.CancelDoesNotReachACommand := by
  intro i s
  refine ⟨?_, fun t ht hquiet => (exec_keepsCancel i s t ht).cancel hquiet⟩
  have hset : exec i { s with cancel := true } = outcomeCancelled (exec i s) := exec_cancelled s i
  rw [hset]
  cases exec i s <;> rfl

end Sys2Proof.Machine

/-! ## The reset sequence (70_reset_and_hazards.md R341, R342)

One equation for each of its three ends. -/

namespace Sys2Proof.Machine

section
variable {s : State}

theorem step_reset (hp : s.phase = .reset) : step s = resetSequence s := by
  simp only [step, hp]

theorem step_refused (hp : s.phase = .refused) : step s = .fault .engineRefused := by
  simp only [step, hp]

/-- R341: a configuration that is not well formed is refused. -/
theorem resetSequence_badConfiguration (hcfg : ¬s.cfg.wf) :
    resetSequence s = .refused .badConfiguration := by
  rw [resetSequence, if_neg hcfg]

/-- R342: without unit 0 the engine refuses to start. -/
theorem resetSequence_withoutUnitZero (hcfg : s.cfg.wf) (h0 : s.units.u0.inUse = false) :
    resetSequence s = .next ((s.withPhase .refused).record .refused) := by
  rw [resetSequence, if_pos hcfg, if_neg (by rw [h0]; decide)]

/-- R341: with unit 0 the engine starts. -/
theorem resetSequence_starts (hcfg : s.cfg.wf) (h0 : s.units.u0.inUse = true) :
    resetSequence s = .next { s with
      phase := .idle, isOpen := s.units.map UnitConfig.inUse, cancel := false, tx := [] } := by
  rw [resetSequence, if_pos hcfg, if_pos h0]

end

/-- Settles O51: the reset ends in `REFUSED`, which has no step. -/
theorem resetRefusesWithoutUnitZero : Obligations.ResetRefusesWithoutUnitZero := by
  intro s hp hcfg h0
  have hstep := (step_reset hp).trans (resetSequence_withoutUnitZero hcfg h0)
  exact ⟨_, hstep, rfl, rfl, rfl, rfl, rfl, step_refused rfl⟩

/-- Settles O52: the three ends of the reset sequence. -/
theorem resetSequenceEnds : Obligations.ResetSequence := by
  intro s hp
  rw [step_reset hp]
  refine ⟨resetSequence_badConfiguration, fun hcfg h0 => ?_, fun hcfg h0 => ?_⟩
  · exact ⟨_, resetSequence_withoutUnitZero hcfg h0, rfl⟩
  · exact ⟨_, resetSequence_starts hcfg h0, rfl, PerUnit.get_map _ _, rfl, rfl, rfl, rfl, rfl, rfl,
      rfl⟩

end Sys2Proof.Machine

/-! ## A stall at the parameter block (70_reset_and_hazards.md R350) -/

namespace Sys2Proof.Machine

/-- R201, R31: with too few bytes queued a transfer waits for its parameter block, its first
primitive. -/
theorem xferRun_waits_for_params {s : State} (b : Byte) (n : Nat) (hp : s.phase = .xfer .params)
    (hf : s.failNow = none) (hlen : (s.rxq ++ s.arrived 1).length < s.paramLength) :
    xferRun b (n + 1) s = .stop (.next s.advance) := by
  rw [← advance_rxq_arrived] at hlen
  rw [xferRun_xfer hp, xferStep, xferParams, ← State.paramLength, recv_waits hf hlen,
    Attempt.stop_andThen, Attempt.stop_andThen]

/-- Settles O37: begun or taken up at its parameter block, a transfer enters `PARAMS` and waits. -/
theorem transferWaitsForParameters : Obligations.TransferWaitsForParameters := by
  intro i s hi hp hf hlen
  have hwaits := xferRun_waits_for_params (s := s.toXfer .params) (encodeCommand i) 8 rfl hf hlen
  rw [exec_transfer hi, transfer, enterXfer_atParams hp, xferLength, hwaits, Attempt.stop_outcome]
  rfl

end Sys2Proof.Machine
